-- ==== Sys2Proof/Word.lean ====
section
/-! DEFINITION. The word types of the CANlights lighting engine: the widths that 00_scope.md rules R10
and R11 and 30_encoding.md rule R90 give. -/

namespace Sys2Proof

/-- One 32-bit command word or response (R90, R101). -/
abbrev Word := BitVec 32

/-- One store byte, duty cycle or number of seconds (R10: DC_BITS and SEC_BITS are 8; R71). -/
abbrev Byte := BitVec 8

/-- A 16-bit quantity: event number, sample, milliamps, millisecond count (R10, R11). -/
abbrev Half := BitVec 16

end Sys2Proof
end

