-- ==== Sys2Proof/Syntax.lean ====
section
/-! DEFINITION. The commands of the block: one constructor of `Instr` per row of opcode_table.json, with
the fields that 30_encoding.md rules R93 to R100 name, and the enumerations those fields stand for. -/

namespace Sys2Proof

/-- A phase, the day or night target context (R19: DAY = 0, NIGHT = 1). -/
inductive Phase where
  | day
  | night
deriving DecidableEq, Repr

/-- The parameter kinds of the address decoder (R106). -/
inductive ParamKind where
  | trans
  | delay
  | dc
  | mode
deriving DecidableEq, Repr

/-- The six mode algorithms, in the order of their codes (R104). -/
inductive Mode where
  | dayNight
  | dusk
  | dawn
  | duskDawn
  | night010
  | day010
deriving DecidableEq, Repr

/-- The index of a channel (R32: ten records, indices 0 to 9). -/
abbrev ChanIdx := Fin 10

/-- The commands (R92, R103). A bit that no field of the format names (R91) has no place here. -/
inductive Instr where
  /-- NOP (R250). -/
  | nop
  /-- TICK (R131): one millisecond. -/
  | tick
  /-- EVENT.NIGHTSW (R222): the bus night switch, `ON`. -/
  | eventNightsw (on : Bool)
  /-- EVENT.TEST1 (R224): test of channel index 0. -/
  | eventTest1 (on : Bool)
  /-- EVENT.TEST2 (R224): test of channel index 1. -/
  | eventTest2 (on : Bool)
  /-- EVENT.TEST3 (R224): test of channel index 2. -/
  | eventTest3 (on : Bool)
  /-- EVENT.TEST4 (R224): test of channel index 3. -/
  | eventTest4 (on : Bool)
  /-- EVENT.TEST5 (R224): test of channel index 4. -/
  | eventTest5 (on : Bool)
  /-- EVENT.TEST6 (R224): test of channel index 5. -/
  | eventTest6 (on : Bool)
  /-- EVENT.TEST7 (R224): test of channel index 6. -/
  | eventTest7 (on : Bool)
  /-- EVENT.TEST8 (R224): test of channel index 7. -/
  | eventTest8 (on : Bool)
  /-- EVENT.TEST9 (R224): test of channel index 8. -/
  | eventTest9 (on : Bool)
  /-- EVENT.TEST10 (R224): test of channel index 9. -/
  | eventTest10 (on : Bool)
  /-- EVENT.TESTEND (R225): `ON` is a field of the format and has no effect. -/
  | eventTestend (on : Bool)
  /-- EVENT.SHUTDOWN (R226): force the outputs to 0, or restore. -/
  | eventShutdown (on : Bool)
  /-- EVENT.IGNORED (R227): an event number of 13 or more. -/
  | eventIgnored (on : Bool) (en : Half)
  /-- DNIN (R228): the debounced local level. -/
  | dnin (lvl : Phase)
  /-- SUPV (R192): one supervisory pass with one sample. -/
  | supv (raw : Half)
  /-- CFGRD (R176). -/
  | cfgrd (off : Byte)
  /-- CFGWR (R177). -/
  | cfgwr (off : Byte) (data : Byte)
  /-- CFGADR (R121). -/
  | cfgadr (kind : ParamKind) (chn : BitVec 4) (ph : Phase)
  /-- LOAD (R171). -/
  | load
  /-- SAVEDEF (R175). -/
  | savedef
  /-- EMITTEST (R229): the polarity of the test message. -/
  | emittest (lvl : Bool)
  /-- STATRD (R253). -/
  | statrd (sel : Byte)
  /-- RESERVED.C (R251). -/
  | reservedC
  /-- RESERVED.D (R251). -/
  | reservedD
  /-- RESERVED.E (R251). -/
  | reservedE
  /-- RESET (R252). -/
  | reset
deriving DecidableEq, Repr

end Sys2Proof
end

