-- ==== Sys2Proof/WellFormed.lean ====
section
/-! DEFINITION. Which terms of `Instr` an encoding exists for. The field widths are in the types; the one
check left is the event number of EVENT.IGNORED (30_encoding.md rule R103: 13 to 65535, because the
rows for 0 to 12 take precedence). -/

namespace Sys2Proof

/-- The instruction has a command word that decodes to it. Every CFGADR is well formed: rule R107 gives
every 32-bit word a meaning, also those whose channel number is 10 or more (R122). -/
def Instr.wf : Instr → Bool
  | .eventIgnored _ en => decide (13 ≤ en.toNat)
  | .nop | .tick | .eventNightsw _ => true
  | .eventTest1 _ | .eventTest2 _ | .eventTest3 _ | .eventTest4 _ | .eventTest5 _ => true
  | .eventTest6 _ | .eventTest7 _ | .eventTest8 _ | .eventTest9 _ | .eventTest10 _ => true
  | .eventTestend _ | .eventShutdown _ | .dnin _ | .supv _ => true
  | .cfgrd _ | .cfgwr _ _ | .cfgadr _ _ _ | .load | .savedef => true
  | .emittest _ | .statrd _ | .reservedC | .reservedD | .reservedE | .reset => true

end Sys2Proof
end

