-- ==== Sys2Proof/Decode.lean ====
section
/-! DEFINITION. Decoding and encoding of command words, from 30_encoding.md rules R90 to R108. The decoder
is total on all 32-bit words (R107, R108); the only thing it rejects is the absence of a word. -/

namespace Sys2Proof

/-! ## Encoded values -/

/-- R19: DAY = 0, NIGHT = 1. -/
def Phase.bit : Phase → BitVec 1
  | .day => 0
  | .night => 1

/-- The phase that one bit of a command selects (R19, R95, R99). -/
def Phase.ofBool : Bool → Phase
  | false => .day
  | true => .night

/-- R106. -/
def ParamKind.code : ParamKind → BitVec 2
  | .trans => 0
  | .delay => 1
  | .dc => 2
  | .mode => 3

/-- R106, read from the two bits of `KIND`. -/
def ParamKind.ofCode (k : BitVec 2) : ParamKind :=
  match k.toNat with
  | 0 => .trans
  | 1 => .delay
  | 2 => .dc
  | _ => .mode

/-! ## Fields (R90 and R94 to R100): `v[hi:lo]` of R13 -/

/-- `OP = cmd[31:28]` (R90). -/
def opField (w : Word) : BitVec 4 := w.extractLsb' 28 4
/-- `EN = cmd[15:0]` (R94). -/
def enField (w : Word) : Half := w.extractLsb' 0 16
/-- `ON = cmd[16]` (R94). -/
def onField (w : Word) : Bool := w.getLsbD 16
/-- `LVL = cmd[0]` (R95). -/
def lvlField (w : Word) : Bool := w.getLsbD 0
/-- `RAW = cmd[15:0]` (R96). -/
def rawField (w : Word) : Half := w.extractLsb' 0 16
/-- `OFF = cmd[23:16]` (R97, R98). -/
def offField (w : Word) : Byte := w.extractLsb' 16 8
/-- `DATA = cmd[7:0]` (R98). -/
def dataField (w : Word) : Byte := w.extractLsb' 0 8
/-- `KIND = cmd[9:8]` (R99). -/
def kindField (w : Word) : BitVec 2 := w.extractLsb' 8 2
/-- `CHN = cmd[7:4]` (R99). -/
def chnField (w : Word) : BitVec 4 := w.extractLsb' 4 4
/-- `PH = cmd[0]` (R99). -/
def phField (w : Word) : Bool := w.getLsbD 0
/-- `SEL = cmd[7:0]` (R100). -/
def selField (w : Word) : Byte := w.extractLsb' 0 8

/-! ## Decoding -/

/-- The event-number map of R103: the sub-mnemonic that `EN` selects. -/
def decodeEvent (on : Bool) (en : Half) : Instr :=
  match en.toNat with
  | 0 => .eventNightsw on
  | 1 => .eventTest1 on
  | 2 => .eventTest2 on
  | 3 => .eventTest3 on
  | 4 => .eventTest4 on
  | 5 => .eventTest5 on
  | 6 => .eventTest6 on
  | 7 => .eventTest7 on
  | 8 => .eventTest8 on
  | 9 => .eventTest9 on
  | 10 => .eventTest10 on
  | 11 => .eventTestend on
  | 12 => .eventShutdown on
  | _ => .eventIgnored on en

/-- The operation map of R92, followed by the fields of the operation's format (R108). -/
def decodeWord (w : Word) : Instr :=
  match (opField w).toNat with
  | 0x0 => .nop
  | 0x1 => .tick
  | 0x2 => decodeEvent (onField w) (enField w)
  | 0x3 => .dnin (Phase.ofBool (lvlField w))
  | 0x4 => .supv (rawField w)
  | 0x5 => .cfgrd (offField w)
  | 0x6 => .cfgwr (offField w) (dataField w)
  | 0x7 => .cfgadr (ParamKind.ofCode (kindField w)) (chnField w) (Phase.ofBool (phField w))
  | 0x8 => .load
  | 0x9 => .savedef
  | 0xA => .emittest (lvlField w)
  | 0xB => .statrd (selField w)
  | 0xC => .reservedC
  | 0xD => .reservedD
  | 0xE => .reservedE
  | _ => .reset

/-- Why nothing was decoded. R107 leaves no word to reject, so an empty command port is the one reason. -/
inductive DecodeReject where
  /-- No command word waits at the port. -/
  | noCommand
deriving DecidableEq, Repr

/-- Decode the first of the waiting command words and hand back the rest. Every command is one word (R90). -/
def decode : List Word → Except DecodeReject (Instr × List Word)
  | [] => .error .noCommand
  | w :: rest => .ok (decodeWord w, rest)

/-! ## Encoding (R93 to R100, R109; bits no field names are written 0, R91) -/

/-- A field placed with its bit 0 at bit `lo` of a 32-bit word (R13). Disjoint fields are joined by OR (R109). -/
def place {n : Nat} (lo : Nat) (v : BitVec n) : Word := v.setWidth 32 <<< lo

/-- Format N (R93). -/
def formatN (op : BitVec 4) : Word := place 28 op
/-- Format E (R94). -/
def formatE (on : Bool) (en : Half) : Word :=
  place 28 0x2#4 ||| place 16 (BitVec.ofBool on) ||| place 0 en
/-- Format L (R95). -/
def formatL (op : BitVec 4) (lvl : BitVec 1) : Word := place 28 op ||| place 0 lvl
/-- Format A (R96). -/
def formatA (raw : Half) : Word := place 28 0x4#4 ||| place 0 raw
/-- Format R (R97). -/
def formatR (off : Byte) : Word := place 28 0x5#4 ||| place 16 off
/-- Format W (R98). -/
def formatW (off data : Byte) : Word := place 28 0x6#4 ||| place 16 off ||| place 0 data
/-- Format M (R99). -/
def formatM (kind : BitVec 2) (chn : BitVec 4) (ph : BitVec 1) : Word :=
  place 28 0x7#4 ||| place 8 kind ||| place 4 chn ||| place 0 ph
/-- Format S (R100). -/
def formatS (sel : Byte) : Word := place 28 0xB#4 ||| place 0 sel

/-- The command word of an instruction (R92, R103, R109). -/
def encode : Instr → Word
  | .nop => formatN 0x0
  | .tick => formatN 0x1
  | .eventNightsw on => formatE on 0
  | .eventTest1 on => formatE on 1
  | .eventTest2 on => formatE on 2
  | .eventTest3 on => formatE on 3
  | .eventTest4 on => formatE on 4
  | .eventTest5 on => formatE on 5
  | .eventTest6 on => formatE on 6
  | .eventTest7 on => formatE on 7
  | .eventTest8 on => formatE on 8
  | .eventTest9 on => formatE on 9
  | .eventTest10 on => formatE on 10
  | .eventTestend on => formatE on 11
  | .eventShutdown on => formatE on 12
  | .eventIgnored on en => formatE on en
  | .dnin lvl => formatL 0x3 lvl.bit
  | .supv raw => formatA raw
  | .cfgrd off => formatR off
  | .cfgwr off data => formatW off data
  | .cfgadr kind chn ph => formatM kind.code chn ph.bit
  | .load => formatN 0x8
  | .savedef => formatN 0x9
  | .emittest lvl => formatL 0xA (BitVec.ofBool lvl)
  | .statrd sel => formatS sel
  | .reservedC => formatN 0xC
  | .reservedD => formatN 0xD
  | .reservedE => formatN 0xE
  | .reset => formatN 0xF

/-- The mask of opcode_table.json's row of an instruction. -/
def tableMask : Instr → Word
  | .eventNightsw _ | .eventTest1 _ | .eventTest2 _ | .eventTest3 _ | .eventTest4 _ => 0xF000FFFF
  | .eventTest5 _ | .eventTest6 _ | .eventTest7 _ | .eventTest8 _ | .eventTest9 _ => 0xF000FFFF
  | .eventTest10 _ | .eventTestend _ | .eventShutdown _ => 0xF000FFFF
  | .nop | .tick | .eventIgnored _ _ | .dnin _ | .supv _ | .cfgrd _ | .cfgwr _ _ => 0xF0000000
  | .cfgadr _ _ _ | .load | .savedef | .emittest _ | .statrd _ => 0xF0000000
  | .reservedC | .reservedD | .reservedE | .reset => 0xF0000000

/-- The match value of opcode_table.json's row of an instruction. -/
def tableMatch : Instr → Word
  | .nop => 0x00000000
  | .tick => 0x10000000
  | .eventNightsw _ => 0x20000000
  | .eventTest1 _ => 0x20000001
  | .eventTest2 _ => 0x20000002
  | .eventTest3 _ => 0x20000003
  | .eventTest4 _ => 0x20000004
  | .eventTest5 _ => 0x20000005
  | .eventTest6 _ => 0x20000006
  | .eventTest7 _ => 0x20000007
  | .eventTest8 _ => 0x20000008
  | .eventTest9 _ => 0x20000009
  | .eventTest10 _ => 0x2000000A
  | .eventTestend _ => 0x2000000B
  | .eventShutdown _ => 0x2000000C
  | .eventIgnored _ _ => 0x20000000
  | .dnin _ => 0x30000000
  | .supv _ => 0x40000000
  | .cfgrd _ => 0x50000000
  | .cfgwr _ _ => 0x60000000
  | .cfgadr _ _ _ => 0x70000000
  | .load => 0x80000000
  | .savedef => 0x90000000
  | .emittest _ => 0xA0000000
  | .statrd _ => 0xB0000000
  | .reservedC => 0xC0000000
  | .reservedD => 0xD0000000
  | .reservedE => 0xE0000000
  | .reset => 0xF0000000

/-- The bits that the format of the operation `op` names (R93 to R100); every other bit is ignored (R91). -/
def namedBits (op : BitVec 4) : Word :=
  match op.toNat with
  | 0x2 => 0xF001FFFF
  | 0x3 => 0xF0000001
  | 0x4 => 0xF000FFFF
  | 0x5 => 0xF0FF0000
  | 0x6 => 0xF0FF00FF
  | 0x7 => 0xF00003F1
  | 0xA => 0xF0000001
  | 0xB => 0xF00000FF
  | _ => 0xF0000000

/-! ## The host's numbering of a word -/

/-- The command word whose bits are `w`, `nbits` of them given and the rest 0. A command word is delivered
whole as a value and has no byte order (R77), so its bit 0 is the numeral's bit 0. -/
def numeralWord (nbits w : Nat) : Word := BitVec.ofNat 32 (w % 2 ^ nbits)

/-- What the decoder reads from an instruction of at most 32 bits given as a numeral; a longer one is no
command (R90: all commands have one length). -/
def decodeTableWord (nbits w : Nat) : Option Instr :=
  if nbits ≤ 32 then
    match decode [numeralWord nbits w] with
    | .ok (i, _) => some i
    | .error _ => none
  else none

end Sys2Proof
end

