-- ==== Sys2Proof/Config.lean ====
section
/-! DEFINITION. The implementation parameters of 00_scope.md: the fixed constants of R10 and R11, the
structure of the parameters a model takes as arguments (R11 and R12), and their values at power-up. -/

namespace Sys2Proof

/-- DEFAULT_NV, one default byte per parameter group (R181, D29). -/
structure DefaultNv where
  trans : Byte
  delay0 : Byte
  delay1 : Byte
  dc0 : Byte
  dc1 : Byte
  mode : Byte
deriving DecidableEq, Repr

/-- The parameters that a model takes as arguments: the OPEN ones of R12 and those of R11 that are marked
as parameters (R138, R173, R181). STORE_INIT is an argument of `State.powerUp`. -/
structure Params where
  /-- ADC_ZERO (R12). -/
  adcZero : Half
  /-- MA_NUM (R12). -/
  maNum : Nat
  /-- MA_DEN (R12). -/
  maDen : Nat
  /-- OVERAMP_MA (R12). -/
  overampMa : Half
  /-- UV_RAW (R12). -/
  uvRaw : Half
  /-- ALARM_ON_MS (R12). -/
  alarmOnMs : Half
  /-- ALARM_PERIOD_MS (R12). -/
  alarmPeriodMs : Half
  /-- EN_OUT_POWER (R12). -/
  enOutPower : Half
  /-- EN_OUT_ALARM (R12). -/
  enOutAlarm : Half
  /-- EN_OUT_NIGHT (R12). -/
  enOutNight : Half
  /-- EN_OUT_TEST (R12). -/
  enOutTest : Half
  /-- FREEZE_ON_POWER_FAULT (R11, R138). -/
  freezeOnPowerFault : Bool
  /-- MODE_FALLBACK (R11, R173). -/
  modeFallback : Mode
  /-- DEFAULT_NV (R11, R181). -/
  defaultNv : DefaultNv
deriving DecidableEq, Repr

/-- The constraints of R12 that the field widths do not already give. -/
abbrev Params.ok (p : Params) : Prop :=
  1 ≤ p.maDen ∧ 1 ≤ p.alarmOnMs.toNat ∧ p.alarmOnMs.toNat ≤ p.alarmPeriodMs.toNat

namespace Config

/-! ## Fixed constants (R10, R11) -/

/-- CFG_SIZE (R10). -/
@[simp] abbrev cfgSize : Nat := 60
/-- MS_PER_SEC (R10). -/
@[simp] abbrev msPerSec : Half := 1000
/-- MIN_DELTA (R10). -/
@[simp] abbrev minDelta : Nat := 4
/-- MS_PER_STEP_MAX (R11). -/
@[simp] abbrev msPerStepMax : Nat := 63750
/-- TEST_HIGH (R10). -/
@[simp] abbrev testHigh : Byte := 254
/-- TEST_LOW (R10). -/
@[simp] abbrev testLow : Byte := 1
/-- FAULT_DUTY (R10). -/
@[simp] abbrev faultDuty : Byte := 0
/-- SHUTDOWN_DUTY (R10). -/
@[simp] abbrev shutdownDuty : Byte := 0
/-- The saturation bound of the current estimate (R11: MA_BITS is 16, saturating). -/
@[simp] abbrev mAMax : Nat := 65535

/-! ## OPEN parameters (R12): constants without a body, so that no proof can rest on a value
(DESIGN CHOICE, entry 4). The constraints of R12 hold by construction, and every allowed value is
reached (entry 9). -/

/-- ADC_ZERO: any 16-bit value. -/
opaque adcZero : Half
/-- MA_NUM: any natural number. -/
opaque maNum : Nat
/-- MA_DEN less one, so that MA_DEN is at least 1. -/
opaque maDenPred : Nat
/-- OVERAMP_MA: any 16-bit value. -/
opaque overampMa : Half
/-- UV_RAW: any 16-bit value. -/
opaque uvRaw : Half
/-- ALARM_PERIOD_MS less one: the period is 1 to 65535. -/
opaque alarmPeriodPred : Fin 65535
/-- ALARM_ON_MS less one, read modulo the period: the on-time is 1 to the period. -/
opaque alarmOnPred : Nat
/-- EN_OUT_POWER. -/
opaque enOutPower : Half
/-- EN_OUT_ALARM. -/
opaque enOutAlarm : Half
/-- EN_OUT_NIGHT. -/
opaque enOutNight : Half
/-- EN_OUT_TEST. -/
opaque enOutTest : Half

/-! ## Parameters with a stated default (R11; entry 5) -/

/-- DEFAULT_NV (R181). -/
def defaultNv : DefaultNv := { trans := 5, delay0 := 0, delay1 := 0, dc0 := 0, dc1 := 255, mode := 0 }

/-- The parameters of the machine at `State.reset`. -/
def params : Params where
  adcZero := adcZero
  maNum := maNum
  maDen := maDenPred + 1
  overampMa := overampMa
  uvRaw := uvRaw
  alarmOnMs := BitVec.ofNat 16 (alarmOnPred % (alarmPeriodPred.val + 1) + 1)
  alarmPeriodMs := BitVec.ofNat 16 (alarmPeriodPred.val + 1)
  enOutPower := enOutPower
  enOutAlarm := enOutAlarm
  enOutNight := enOutNight
  enOutTest := enOutTest
  freezeOnPowerFault := false
  modeFallback := .dayNight
  defaultNv := defaultNv

end Config
end Sys2Proof
end

