-- ==== Sys2Proof/Machine/State.lean ====
section
/-! DEFINITION. The state of the block: 10_state.md rules R32, R33 and R39, 20_memory.md rules R70 and R71,
and the model's own fields `params`, `out` and `port` (entries 1, 3 and 4). Plain data throughout. -/

namespace Sys2Proof.Machine

/-- The machine state of a channel (R33, R36, R105). The code 3 is not a value. -/
inductive ChState where
  | steady
  | transit
  | delay
deriving DecidableEq, Repr

/-- One channel record (R33). `dc[p]` and `secDelay[p]` are two fields each. -/
structure Channel where
  /-- Target duty cycle for day. -/
  dc0 : Byte
  /-- Target duty cycle for night. -/
  dc1 : Byte
  /-- Current engine duty cycle. -/
  dcCur : Byte
  /-- STEADY, TRANSIT or DELAY. -/
  state : ChState
  /-- Phase index of the target being approached or held. -/
  phase : Phase
  /-- Transition duration in seconds. -/
  secTrans : Byte
  /-- Delay before the transition to phase 0, in seconds. -/
  secDelay0 : Byte
  /-- Delay before the transition to phase 1, in seconds. -/
  secDelay1 : Byte
  /-- Mode algorithm. -/
  mode : Mode
  /-- Milliseconds between 1-unit duty steps, derived (R130). -/
  msPerStep : Half
  /-- Millisecond accumulator. -/
  msCount : Half
  /-- Second accumulator. -/
  secCount : Byte
  /-- Phase that started the current chain. -/
  trig : Phase
  /-- Position of the current segment in the chain: false is 0, true is 1. -/
  seqPos : Bool
  /-- Test override active. -/
  testEn : Bool
  /-- Forced test duty value. -/
  testVal : Byte
deriving DecidableEq, Repr

/-- The global registers (R39). -/
structure Globals where
  /-- Last phase broadcast to all channels. -/
  dayNight : Phase
  /-- Last level seen on the local day/night input. -/
  dnInput : Phase
  /-- Bus shutdown override active. -/
  shutdown : Bool
  /-- Latest current estimate in milliamps. -/
  mA : Half
  /-- Latest sample is over-current. -/
  overAmp : Bool
  /-- Latest sample is under-voltage. -/
  underVolt : Bool
  /-- Power fault override active. -/
  alarmActive : Bool
  /-- Alarm sequencer countdown, in ticks. -/
  alarmCnt : Half
deriving DecidableEq, Repr

/-- The kinds of outbound events (R16). -/
inductive OutKind where
  | power
  | alarm
  | night
  | test
deriving DecidableEq, Repr

/-- One outbound event `(kind, on)` (R16). -/
structure OutEvent where
  kind : OutKind
  on : Bool
deriving DecidableEq, Repr

/-- What one step gives the outside (R18): the outbound events in order, and the response. -/
structure Output where
  events : List OutEvent
  response : Option Word
deriving DecidableEq, Repr

/-- The configuration store (R71) as offset and byte pairs in canonical form (`Memory.wf`). -/
abbrev Memory := List Host.Cell

/-- The state of the block. -/
structure State where
  /-- The channel register file (R32). -/
  ch : Vector Channel 10
  /-- The global registers (R39). -/
  g : Globals
  /-- The configuration store (R71). -/
  cfg : Memory
  /-- The implementation parameters of R11 and R12; no step writes them (entry 4). -/
  params : Params
  /-- The output of the latest step (R18; entry 3). -/
  out : Output
  /-- The command words presented by the host and not yet taken, oldest first (R30; entry 1). -/
  port : List Word
deriving DecidableEq, Repr

/-- Reasons to stop with a fault. There are none: the block raises no exception and every command
completes (R271), so this type has no constructor. -/
inductive Fault where
deriving DecidableEq, Repr

/-- Reasons to refuse an instruction. -/
inductive Refusal where
  /-- Raised by an arm of `exec` whose instruction has no meaning yet; safe, since nothing can be proved
  of what such an instruction does. No arm raises it now. -/
  | notModelled (mnemonic : String)
deriving DecidableEq, Repr

/-- What a step answers. -/
abbrev Result := Host.Outcome State Fault Refusal

/-- A channel record right after reset (R49), loaded from a store whose bytes all read 0 (entry 6):
`msPerStep` is what R130 derives from zeros. -/
def Channel.afterReset : Channel where
  dc0 := 0
  dc1 := 0
  dcCur := 0
  state := .steady
  phase := .day
  secTrans := 0
  secDelay0 := 0
  secDelay1 := 0
  mode := .dayNight
  msPerStep := 1
  msCount := 0
  secCount := 0
  trig := .day
  seqPos := false
  testEn := false
  testVal := 0

/-- The global registers right after reset (R49). -/
def Globals.afterReset : Globals where
  dayNight := .day
  dnInput := .day
  shutdown := false
  mA := 0
  overAmp := false
  underVolt := false
  alarmActive := false
  alarmCnt := 0

/-- The block right after power-up (R49, R252, R290): no override, every channel STEADY at its day target,
the power-on announcement given. The store lists no byte (entry 6), no command waits (entry 1). -/
def State.reset : State where
  ch := Vector.replicate 10 Channel.afterReset
  g := Globals.afterReset
  cfg := []
  params := Config.params
  out := { events := [⟨.power, true⟩], response := none }
  port := []

end Sys2Proof.Machine
end

