-- ==== Sys2Proof/Machine/Operands.lean ====
section
/-! DEFINITION. Operand forms: fields selected by a phase, encoded values, and widening (00_scope.md rules
R13, R15, R19; 30_encoding.md rules R102, R104, R105). -/

namespace Sys2Proof

/-- The other phase, `¬p` of R19. -/
def Phase.other : Phase → Phase
  | .day => .night
  | .night => .day

/-- `t XOR k` for a chain position `k` (R37, R140). -/
def Phase.xor (t : Phase) (k : Bool) : Phase := if k then t.other else t

/-- R104: mode codes. -/
def Mode.code : Mode → BitVec 3
  | .dayNight => 0
  | .dusk => 1
  | .dawn => 2
  | .duskDawn => 3
  | .night010 => 4
  | .day010 => 5

/-- `clampMode` of R173: a byte of 0 to 5 is its mode, any other is MODE_FALLBACK. -/
def clampMode (fallback : Mode) (b : Byte) : Mode :=
  match b.toNat with
  | 0 => .dayNight
  | 1 => .dusk
  | 2 => .dawn
  | 3 => .duskDawn
  | 4 => .night010
  | 5 => .day010
  | _ => fallback

namespace Machine

/-- `ch[i]` (R15): one channel record of the state. -/
def State.chan (s : State) (i : ChanIdx) : Channel := s.ch[i]

/-- R105: state codes. -/
def ChState.code : ChState → BitVec 2
  | .steady => 0
  | .transit => 1
  | .delay => 2

/-- `dc[p]` of a channel (R15, R33). -/
def Channel.dc (c : Channel) : Phase → Byte
  | .day => c.dc0
  | .night => c.dc1

/-- `secDelay[p]` of a channel (R15, R33). -/
def Channel.secDelay (c : Channel) : Phase → Byte
  | .day => c.secDelay0
  | .night => c.secDelay1

/-- The target of the channel's current segment, `dc[phase]` (R133). -/
def Channel.target (c : Channel) : Byte := c.dc c.phase

/-- `zext_32` (R13). -/
def zext32 {n : Nat} (v : BitVec n) : Word := v.setWidth 32

/-- The channel `i` for which a STATRD selector is `base + i`, if it is 0 to 9 (R253). -/
def chanOfSel (base : Nat) (sel : Byte) : Option ChanIdx :=
  if h : base ≤ sel.toNat ∧ sel.toNat - base < 10 then some ⟨sel.toNat - base, h.2⟩ else none

end Machine
end Sys2Proof
end

