-- ==== Sys2Proof/Machine/Flags.lean ====
section
/-! DEFINITION. How the status flags of 10_state.md rule R41 are computed: the power-fault flags of
43_power_supervisor.md (R191, R193, R194) and the polarity values of 44_event_dispatch.md. -/

namespace Sys2Proof.Machine

/-- `sample(raw)` (R191): the linear calibration, saturating at 65535. -/
def sample (p : Params) (raw : Half) : Half :=
  if p.adcZero.toNat < raw.toNat then
    BitVec.ofNat 16 (min Config.mAMax (((raw.toNat - p.adcZero.toNat) * p.maNum) / p.maDen))
  else 0

/-- Over-current: the estimate exceeds OVERAMP_MA (R193). -/
def overCurrent (p : Params) (mA : Half) : Bool := decide (p.overampMa.toNat < mA.toNat)

/-- Under-voltage: the raw sample is below UV_RAW (R194). -/
def underVoltage (p : Params) (raw : Half) : Bool := decide (raw.toNat < p.uvRaw.toNat)

/-- The power-fault registers that SUPV rewrites from its sample before it looks at them (R192, R195). -/
def Globals.sensed (g : Globals) (p : Params) (raw : Half) : Globals :=
  { g with
    mA := sample p raw
    overAmp := overCurrent p (sample p raw)
    underVolt := underVoltage p raw }

/-- Either fault is present (R192). -/
def Globals.faulty (g : Globals) : Bool := g.overAmp || g.underVolt

/-- The forced value of a test override (R224). -/
def testValue (on : Bool) : Byte := if on then Config.testHigh else Config.testLow

end Sys2Proof.Machine
end

