-- ==== Sys2Proof/Machine/Ops.lean ====
section
/-! DEFINITION. The named operations over the state: store accesses, the address decoder, the channel
engine, the bank, the output list, the power-fault override, power-up, and the command port. Every
meaning is written over these. -/

namespace Sys2Proof.Machine

/-! ## The configuration store (20_memory.md) -/

/-- What a store byte that nothing has written reads as. The spec leaves STORE_INIT open (R12, R86); the
model fixes 0 (DESIGN CHOICE, entry 6). -/
def Memory.unlisted (_offset : Nat) : Byte := 0

/-- `MemRead(o, 1)` (R15). -/
def Memory.read : Memory → Nat → Byte
  | [], a => Memory.unlisted a
  | (b, v) :: m, a => if b = a then v else Memory.read m a

/-- Drop the entry of an offset. -/
def Memory.erase (m : Memory) (a : Nat) : Memory := m.filter fun e => e.1 != a

/-- Put an entry before the first larger offset. -/
def Memory.insert (a : Nat) (v : Byte) : Memory → Memory
  | [] => [(a, v)]
  | (b, u) :: m => if a < b then (a, v) :: (b, u) :: m else (b, u) :: Memory.insert a v m

/-- `MemWrite(o, 1, v)` (R15), in canonical form: a byte equal to the unlisted value has no entry. -/
def Memory.write (m : Memory) (a : Nat) (v : Byte) : Memory :=
  if v = Memory.unlisted a then m.erase a else (m.erase a).insert a v

/-- The canonical form: offsets strictly rising and below CFG_SIZE, no entry equal to the unlisted value. -/
def Memory.wf (m : Memory) : Bool :=
  decide (m.Pairwise fun x y => x.1 < y.1) &&
    m.all fun e => decide (e.1 < Config.cfgSize) && decide (e.2 ≠ Memory.unlisted e.1)

/-- The read that CFGRD makes (R75, R176): an unmapped offset gives 0. -/
def readMapped (m : Memory) (off : Byte) : Byte :=
  if off.toNat < Config.cfgSize then m.read off.toNat else 0

/-- The write that CFGWR makes (R75, R177): an unmapped offset changes nothing. -/
def writeMapped (m : Memory) (off data : Byte) : Memory :=
  if off.toNat < Config.cfgSize then m.write off.toNat data else m

/-! ## The address decoder (40_address_decoder.md) -/

/-- The group that a kind and a phase select (R106, R120). -/
def groupIndex : ParamKind → Phase → Nat
  | .trans, _ => 0
  | .delay, .day => 1
  | .delay, .night => 2
  | .dc, .day => 3
  | .dc, .night => 4
  | .mode, _ => 5

/-- `cfgAddr(kind, c, p)` (R120), for every 4-bit channel number (R122). -/
def cfgAddr (kind : ParamKind) (c : BitVec 4) (p : Phase) : Byte :=
  BitVec.ofNat 8 (10 * groupIndex kind p + c.toNat)

/-- The 4-bit channel number of a channel, as LOAD and SAVEDEF pass it (R122). -/
def chanNumber (i : ChanIdx) : BitVec 4 := BitVec.ofNat 4 i.val

/-- The store byte of a channel's parameter, at the offset the decoder gives (R74). -/
def readParam (m : Memory) (kind : ParamKind) (i : ChanIdx) (p : Phase) : Byte :=
  m.read (cfgAddr kind (chanNumber i) p).toNat

/-- Write the store byte of a channel's parameter. -/
def writeParam (m : Memory) (kind : ParamKind) (i : ChanIdx) (p : Phase) (v : Byte) : Memory :=
  m.write (cfgAddr kind (chanNumber i) p).toNat v

/-! ## Named updates of the state -/

/-- Replace every channel record by a function of its index and itself: the ten lanes (R132). -/
def State.mapCh (f : ChanIdx → Channel → Channel) (s : State) : State :=
  { s with ch := Vector.ofFn fun i => f i (s.chan i) }

/-- Change one channel record. -/
def State.modifyCh (i : ChanIdx) (f : Channel → Channel) (s : State) : State :=
  s.mapCh fun j c => if j = i then f c else c

/-- Replace the global registers. -/
def State.setG (s : State) (g : Globals) : State := { s with g := g }

/-- Replace the configuration store. -/
def State.setCfg (s : State) (m : Memory) : State := { s with cfg := m }

/-- `emit(kind, on)` (R16): append one event to the step's output list. -/
def State.emit (s : State) (kind : OutKind) (on : Bool) : State :=
  { s with out := { s.out with events := s.out.events ++ [⟨kind, on⟩] } }

/-- `respond(v)` (R16). -/
def State.respond (s : State) (v : Word) : State :=
  { s with out := { s.out with response := some v } }

/-! ## The channel engine (41_channel_engine.md) -/

/-- `|a − b|` (R14). -/
def absDiff (a b : Byte) : Nat := (a.toNat - b.toNat) + (b.toNat - a.toNat)

/-- `deriveMsPerStep` (R130). -/
def deriveMsPerStep (secTrans dc0 dc1 : Byte) : Half :=
  BitVec.ofNat 16
    (max ((secTrans.toNat * Config.msPerSec.toNat) / max (absDiff dc1 dc0) Config.minDelta) 1)

/-- `L(mode, t)`, the number of segments of a chain (R140). -/
def chainLen : Mode → Phase → Nat
  | .dayNight, _ => 1
  | .dusk, .night => 2
  | .dusk, .day => 1
  | .dawn, .night => 1
  | .dawn, .day => 2
  | .duskDawn, _ => 2
  | .night010, .night => 2
  | .night010, .day => 1
  | .day010, .night => 1
  | .day010, .day => 2

/-- `Rep(mode, t)`, whether the chain starts again (R140). -/
def chainRepeats : Mode → Phase → Bool
  | .night010, .night => true
  | .day010, .day => true
  | .dayNight, _ | .dusk, _ | .dawn, _ | .duskDawn, _ => false
  | .night010, .day => false
  | .day010, .night => false

/-- `segmentDone(i)` (R137). The first branch is taken only at position 0, so the next position is 1. -/
def Channel.segmentDone (c : Channel) : Channel :=
  if c.seqPos.toNat + 1 < chainLen c.mode c.trig then
    { c with
      msCount := 0, secCount := 0, seqPos := true, phase := c.trig.xor true, state := .delay }
  else if chainRepeats c.mode c.trig then
    { c with msCount := 0, secCount := 0, seqPos := false, phase := c.trig, state := .delay }
  else { c with msCount := 0, secCount := 0, state := .steady }

/-- One step of ±1 toward a target, none when already there (R133). -/
def stepToward (v tgt : Byte) : Byte :=
  if v.toNat < tgt.toNat then v + 1 else if tgt.toNat < v.toNat then v - 1 else v

/-- The part of a TRANSIT tick before the arrival test (R133, R136). -/
def Channel.ramp (c : Channel) : Channel :=
  if c.secTrans = 0 then { c with dcCur := c.target }
  else if c.msCount + 1 = c.msPerStep then
    { c with msCount := 0, dcCur := stepToward c.dcCur c.target }
  else { c with msCount := c.msCount + 1 }

/-- `chanTick(i)` in TRANSIT (R133). -/
def Channel.transitTick (c : Channel) : Channel :=
  if c.ramp.dcCur = c.target then c.ramp.segmentDone else c.ramp

/-- The counting part of a DELAY tick (R134). -/
def Channel.countMs (c : Channel) : Channel :=
  if c.msCount + 1 = Config.msPerSec then { c with msCount := 0, secCount := c.secCount + 1 }
  else { c with msCount := c.msCount + 1 }

/-- `chanTick(i)` in DELAY (R134). -/
def Channel.delayTick (c : Channel) : Channel :=
  if c.countMs.secCount = c.secDelay c.phase then
    { c.countMs with state := .transit, msCount := 0, secCount := 0 }
  else c.countMs

/-- `chanTick(i)` (R133, R134, R135). -/
def Channel.tick (c : Channel) : Channel :=
  match c.state with
  | .steady => c
  | .transit => c.transitTick
  | .delay => c.delayTick

/-- No channel is advanced: FREEZE_ON_POWER_FAULT is set and a power fault is active (R131, R138). -/
def State.frozen (s : State) : Bool := s.params.freezeOnPowerFault && s.g.alarmActive

/-- The alarm timer's share of a TICK (R131, R197). -/
def Globals.tickAlarm (g : Globals) : Globals :=
  if 0 < g.alarmCnt.toNat then { g with alarmCnt := g.alarmCnt - 1 } else g

/-- TICK (R131). -/
def State.tickAll (s : State) : State :=
  (s.mapCh fun _ c => if s.frozen then c else c.tick).setG s.g.tickAlarm

/-- `trigger(i, t)` (R139). -/
def Channel.trigger (t : Phase) (c : Channel) : Channel :=
  { c with trig := t, seqPos := false, phase := t, state := .delay, msCount := 0, secCount := 0 }

/-! ## The channel bank (42_channel_bank.md) -/

/-- `broadcast(t)` (R170). -/
def State.broadcast (t : Phase) (s : State) : State :=
  (s.setG { s.g with dayNight := t }).mapCh fun _ c => c.trigger t

/-- One channel of LOAD (R171): everything but the test override comes from the store. -/
def loadChannel (p : Params) (m : Memory) (t : Phase) (i : ChanIdx) (c : Channel) : Channel where
  secTrans := readParam m .trans i .day
  secDelay0 := readParam m .delay i .day
  secDelay1 := readParam m .delay i .night
  dc0 := readParam m .dc i .day
  dc1 := readParam m .dc i .night
  mode := clampMode p.modeFallback (readParam m .mode i .day)
  msPerStep :=
    deriveMsPerStep (readParam m .trans i .day) (readParam m .dc i .day) (readParam m .dc i .night)
  trig := t
  seqPos := false
  phase := t
  state := .steady
  msCount := 0
  secCount := 0
  dcCur := readParam m .dc i t
  testEn := c.testEn
  testVal := c.testVal

/-- LOAD (R171). -/
def State.load (s : State) : State := s.mapCh (loadChannel s.params s.cfg s.g.dayNight)

/-- The six writes that SAVEDEF makes for one channel (R175). -/
def saveChannelDefaults (d : DefaultNv) (m : Memory) (i : ChanIdx) : Memory :=
  let m := writeParam m .trans i .day d.trans
  let m := writeParam m .delay i .day d.delay0
  let m := writeParam m .delay i .night d.delay1
  let m := writeParam m .dc i .day d.dc0
  let m := writeParam m .dc i .night d.dc1
  writeParam m .mode i .day d.mode

/-- The store after SAVEDEF's sixty writes, channels in the order 0 to 9 (R175). -/
def saveAllDefaults (d : DefaultNv) (m : Memory) : Memory :=
  (List.finRange 10).foldl (saveChannelDefaults d) m

/-- SAVEDEF (R175): the writes, then LOAD. -/
def State.saveDefaults (s : State) : State :=
  (s.setCfg (saveAllDefaults s.params.defaultNv s.cfg)).load

/-! ## Test and shutdown overrides (44_event_dispatch.md) -/

/-- `testCh(i, on)` on one record (R224). -/
def Channel.forceTest (on : Bool) (c : Channel) : Channel :=
  { c with testEn := true, testVal := testValue on }

/-- The release of a test override (R225, R252). -/
def Channel.releaseTest (c : Channel) : Channel := { c with testEn := false, testVal := 0 }

/-- `testCh(i, on)` (R224). -/
def State.testCh (i : ChanIdx) (on : Bool) (s : State) : State := s.modifyCh i (Channel.forceTest on)

/-- `testEnd()` (R225). -/
def State.testEnd (s : State) : State := s.mapCh fun _ c => c.releaseTest

/-- `dcCur ← dc[phase]` (R226). -/
def Channel.restoreTarget (c : Channel) : Channel := { c with dcCur := c.target }

/-- `shutdownEv(on)` (R226). -/
def State.shutdownEv (on : Bool) (s : State) : State :=
  if on then s.setG { s.g with shutdown := true }
  else (s.setG { s.g with shutdown := false }).mapCh fun _ c => c.restoreTarget

/-- DNIN (R228): acts on a change against `g.dnInput`. -/
def State.presentLevel (lvl : Phase) (s : State) : State :=
  if lvl = s.g.dnInput then s
  else ((s.setG { s.g with dnInput := lvl }).broadcast lvl).emit .night (decide (lvl = .night))

/-! ## The power-fault override (43_power_supervisor.md; 60_exceptions.md rules R274 and R275)

The block takes no trap (R271); this override is its analogue of trap entry and return. -/

/-- Fault override entry (R192, R274): the rising edge emits, the timer is loaded when idle (R197). -/
def State.enterFault (s : State) : State :=
  let s' := if s.g.alarmActive then s else s.emit .alarm true
  s'.setG
    { s.g with
      alarmActive := true
      alarmCnt := if s.g.alarmCnt = 0 then s.params.alarmPeriodMs else s.g.alarmCnt }

/-- Fault override exit (R192, R275): the falling edge emits. -/
def State.exitFault (s : State) : State :=
  let s' := if s.g.alarmActive then s.emit .alarm false else s
  s'.setG { s.g with alarmActive := false }

/-- SUPV (R192). -/
def State.supervise (raw : Half) (s : State) : State :=
  let s' := s.setG (s.g.sensed s.params raw)
  if s'.g.faulty then s'.enterFault else s'.exitFault

/-! ## Reset and power-up (45_system.md rule R252; 70_reset_and_hazards.md rule R290) -/

/-- RESET (R252). The port and the parameters are outside the registers it names (entry 11). -/
def State.resetAll (s : State) : State :=
  (((s.setG Globals.afterReset).mapCh fun _ c => c.releaseTest).load).emit .power true

/-- Power-up with a given store (R86, R282, R290): RESET over registers whose contents were lost. The
argument `m` is STORE_INIT at the first power-up. -/
def State.powerUp (m : Memory) (p : Params) : State :=
  State.resetAll
    { ch := Vector.replicate 10 Channel.afterReset
      g := Globals.afterReset
      cfg := m
      params := p
      out := { events := [], response := none }
      port := [] }

/-! ## The command port (10_state.md rule R30) -/

/-- The output list of a step begins empty (R16, R18). -/
def Output.empty : Output := { events := [], response := none }

/-- Take one command: the words still waiting, and an empty output (entries 1 and 3). -/
def State.accept (s : State) (rest : List Word) : State := { s with port := rest, out := Output.empty }

/-- No command waits: nothing changes, and nothing is given out (entry 2). -/
def State.idle (s : State) : State := { s with out := Output.empty }

/-- The host presents a command word as the next one to be taken. -/
def State.present (s : State) (w : Word) : State := { s with port := w :: s.port }

/-! ## Outbound events on the bus (44_event_dispatch.md rule R230) -/

/-- The bus event number of an event kind (R230, R12). -/
def OutKind.eventNumber (p : Params) : OutKind → Half
  | .power => p.enOutPower
  | .alarm => p.enOutAlarm
  | .night => p.enOutNight
  | .test => p.enOutTest

/-- The `(eventNumber, isOn)` pair the transport is given for an event (R230). -/
def OutEvent.onBus (p : Params) (e : OutEvent) : Half × Bool := (e.kind.eventNumber p, e.on)

end Sys2Proof.Machine
end

