-- ==== Sys2Proof/Machine/Outputs.lean ====
section
/-! DEFINITION. The combinational outputs (43_power_supervisor.md rules R199 and R200) and the read-only
status register map (10_state.md rules R43 to R48 and R50). -/

namespace Sys2Proof.Machine

/-- The duty-cycle output of a channel, before gamma correction (R199): power fault, then shutdown, then
test, then the engine. -/
def State.duty (s : State) (i : ChanIdx) : Byte :=
  if s.g.alarmActive then Config.faultDuty
  else if s.g.shutdown then Config.shutdownDuty
  else if (s.chan i).testEn then (s.chan i).testVal
  else (s.chan i).dcCur

/-- The alarm output (R200). -/
def State.buzzer (s : State) : Bool :=
  decide (s.params.alarmPeriodMs.toNat - s.params.alarmOnMs.toNat < s.g.alarmCnt.toNat)

/-! Each register of the status map is its fields at their bits; every other bit reads 0 (R43). -/

/-- GSTAT, selector 0x00 (R44). -/
def State.gstat (s : State) : Word :=
  place 0 s.g.dayNight.bit ||| place 1 s.g.dnInput.bit ||| place 2 (BitVec.ofBool s.g.shutdown) |||
    place 3 (BitVec.ofBool s.g.overAmp) ||| place 4 (BitVec.ofBool s.g.underVolt) |||
    place 5 (BitVec.ofBool s.g.alarmActive) ||| place 6 (BitVec.ofBool s.buzzer) ||| place 16 s.g.mA

/-- ASTAT, selector 0x01 (R50). -/
def State.astat (s : State) : Word := place 0 s.g.alarmCnt

/-- CHSTAT_i, selector 0x10 + i (R45). -/
def State.chstat (s : State) (i : ChanIdx) : Word :=
  place 0 (s.chan i).state.code ||| place 2 (s.chan i).phase.bit ||| place 3 (s.chan i).trig.bit |||
    place 4 (BitVec.ofBool (s.chan i).seqPos) ||| place 5 (BitVec.ofBool (s.chan i).testEn) |||
    place 8 (s.chan i).dcCur ||| place 16 (s.chan i).testVal ||| place 24 (s.duty i)

/-- CHTIME_i, selector 0x20 + i (R46). -/
def State.chtime (s : State) (i : ChanIdx) : Word :=
  place 0 (s.chan i).msCount ||| place 16 (s.chan i).secCount

/-- CHCFG_i, selector 0x30 + i (R47). -/
def State.chcfg (s : State) (i : ChanIdx) : Word :=
  place 0 (s.chan i).dc0 ||| place 8 (s.chan i).dc1 ||| place 16 (s.chan i).secTrans |||
    place 24 (s.chan i).mode.code

/-- CHCFG2_i, selector 0x40 + i (R48). -/
def State.chcfg2 (s : State) (i : ChanIdx) : Word :=
  place 0 (s.chan i).secDelay0 ||| place 8 (s.chan i).secDelay1 ||| place 16 (s.chan i).msPerStep

/-- The status register that a selector names (R253); an unlisted selector reads 0 (R43). -/
def State.statusWord (s : State) (sel : Byte) : Word :=
  if sel = 0x00 then s.gstat
  else if sel = 0x01 then s.astat
  else
    match chanOfSel 0x10 sel, chanOfSel 0x20 sel, chanOfSel 0x30 sel, chanOfSel 0x40 sel with
    | some i, _, _, _ => s.chstat i
    | none, some i, _, _ => s.chtime i
    | none, none, some i, _ => s.chcfg i
    | none, none, none, some i => s.chcfg2 i
    | none, none, none, none => 0

end Sys2Proof.Machine
end

