-- ==== Sys2Proof/Machine/Bank.lean ====
section
/-! DEFINITION. The meanings of the bank and store commands (42_channel_bank.md) and of CFGADR
(40_address_decoder.md). -/

namespace Sys2Proof.Machine

/-- CFGRD (R176). -/
def execCfgrd (off : Byte) (s : State) : Result := .next (s.respond (zext32 (readMapped s.cfg off)))

/-- CFGWR (R177): the channel register file keeps its copy (R83). -/
def execCfgwr (off data : Byte) (s : State) : Result := .next (s.setCfg (writeMapped s.cfg off data))

/-- CFGADR (R121). For a channel number of 10 or more the decoder computes the same formula (R122); the
model runs the command (DESIGN CHOICE, entry 7). -/
def execCfgadr (kind : ParamKind) (chn : BitVec 4) (ph : Phase) (s : State) : Result :=
  .next (s.respond (zext32 (cfgAddr kind chn ph)))

/-- LOAD (R171). -/
def execLoad (s : State) : Result := .next s.load

/-- SAVEDEF (R175). -/
def execSavedef (s : State) : Result := .next s.saveDefaults

end Sys2Proof.Machine
end

