-- ==== Sys2Proof/Machine/Engine.lean ====
section
/-! DEFINITION. The meaning of TICK (41_channel_engine.md). -/

namespace Sys2Proof.Machine

/-- TICK (R131). -/
def execTick (s : State) : Result := .next s.tickAll

end Sys2Proof.Machine
end

