-- ==== Sys2Proof/Machine/Events.lean ====
section
/-! DEFINITION. The meanings of the EVENT commands, DNIN and EMITTEST (44_event_dispatch.md). -/

namespace Sys2Proof.Machine

/-- EVENT.NIGHTSW (R222): no outbound event (R223), `g.dnInput` untouched. -/
def execEventNightsw (on : Bool) (s : State) : Result := .next (s.broadcast (Phase.ofBool on))

/-- EVENT.TEST1 (R224): channel index 0. -/
def execEventTest1 (on : Bool) (s : State) : Result := .next (s.testCh 0 on)

/-- EVENT.TEST2 (R224): channel index 1. -/
def execEventTest2 (on : Bool) (s : State) : Result := .next (s.testCh 1 on)

/-- EVENT.TEST3 (R224): channel index 2. -/
def execEventTest3 (on : Bool) (s : State) : Result := .next (s.testCh 2 on)

/-- EVENT.TEST4 (R224): channel index 3. -/
def execEventTest4 (on : Bool) (s : State) : Result := .next (s.testCh 3 on)

/-- EVENT.TEST5 (R224): channel index 4. -/
def execEventTest5 (on : Bool) (s : State) : Result := .next (s.testCh 4 on)

/-- EVENT.TEST6 (R224): channel index 5. -/
def execEventTest6 (on : Bool) (s : State) : Result := .next (s.testCh 5 on)

/-- EVENT.TEST7 (R224): channel index 6. -/
def execEventTest7 (on : Bool) (s : State) : Result := .next (s.testCh 6 on)

/-- EVENT.TEST8 (R224): channel index 7. -/
def execEventTest8 (on : Bool) (s : State) : Result := .next (s.testCh 7 on)

/-- EVENT.TEST9 (R224): channel index 8. -/
def execEventTest9 (on : Bool) (s : State) : Result := .next (s.testCh 8 on)

/-- EVENT.TEST10 (R224): channel index 9. -/
def execEventTest10 (on : Bool) (s : State) : Result := .next (s.testCh 9 on)

/-- EVENT.TESTEND (R225): both polarities do the same. -/
def execEventTestend (_on : Bool) (s : State) : Result := .next s.testEnd

/-- EVENT.SHUTDOWN (R226). -/
def execEventShutdown (on : Bool) (s : State) : Result := .next (s.shutdownEv on)

/-- EVENT.IGNORED (R227): no action. -/
def execEventIgnored (_on : Bool) (_en : Half) (s : State) : Result := .next s

/-- DNIN (R228). -/
def execDnin (lvl : Phase) (s : State) : Result := .next (s.presentLevel lvl)

/-- EMITTEST (R229). -/
def execEmittest (lvl : Bool) (s : State) : Result := .next (s.emit .test lvl)

end Sys2Proof.Machine
end

