-- ==== Sys2Proof/Machine/Supervisor.lean ====
section
/-! DEFINITION. The meaning of SUPV (43_power_supervisor.md). -/

namespace Sys2Proof.Machine

/-- SUPV (R192). -/
def execSupv (raw : Half) (s : State) : Result := .next (s.supervise raw)

end Sys2Proof.Machine
end

