-- ==== Sys2Proof/Machine/System.lean ====
section
/-! DEFINITION. The meanings of NOP, the reserved operations, RESET and STATRD (45_system.md). -/

namespace Sys2Proof.Machine

/-- NOP (R250). -/
def execNop (s : State) : Result := .next s

/-- RESERVED.C (R251): no operation. -/
def execReservedC (s : State) : Result := .next s

/-- RESERVED.D (R251): no operation. -/
def execReservedD (s : State) : Result := .next s

/-- RESERVED.E (R251): no operation. -/
def execReservedE (s : State) : Result := .next s

/-- RESET (R252). -/
def execReset (s : State) : Result := .next s.resetAll

/-- STATRD (R253): the combinational fields are those of the state before the command. -/
def execStatrd (sel : Byte) (s : State) : Result := .next (s.respond (s.statusWord sel))

end Sys2Proof.Machine
end

