-- ==== Sys2Proof/Machine/Dispatch.lean ====
section
/-! DEFINITION. One arm per command: the meaning it runs (44_event_dispatch.md rule R220 selects the EVENT
rows at decoding, R108). -/

namespace Sys2Proof.Machine

def exec (i : Instr) (s : State) : Host.Outcome State Fault Refusal :=
  match i with
  | .nop => Sys2Proof.Machine.execNop s
  | .tick => Sys2Proof.Machine.execTick s
  | .eventNightsw on => Sys2Proof.Machine.execEventNightsw on s
  | .eventTest1 on => Sys2Proof.Machine.execEventTest1 on s
  | .eventTest2 on => Sys2Proof.Machine.execEventTest2 on s
  | .eventTest3 on => Sys2Proof.Machine.execEventTest3 on s
  | .eventTest4 on => Sys2Proof.Machine.execEventTest4 on s
  | .eventTest5 on => Sys2Proof.Machine.execEventTest5 on s
  | .eventTest6 on => Sys2Proof.Machine.execEventTest6 on s
  | .eventTest7 on => Sys2Proof.Machine.execEventTest7 on s
  | .eventTest8 on => Sys2Proof.Machine.execEventTest8 on s
  | .eventTest9 on => Sys2Proof.Machine.execEventTest9 on s
  | .eventTest10 on => Sys2Proof.Machine.execEventTest10 on s
  | .eventTestend on => Sys2Proof.Machine.execEventTestend on s
  | .eventShutdown on => Sys2Proof.Machine.execEventShutdown on s
  | .eventIgnored on en => Sys2Proof.Machine.execEventIgnored on en s
  | .dnin lvl => Sys2Proof.Machine.execDnin lvl s
  | .supv raw => Sys2Proof.Machine.execSupv raw s
  | .cfgrd off => Sys2Proof.Machine.execCfgrd off s
  | .cfgwr off data => Sys2Proof.Machine.execCfgwr off data s
  | .cfgadr kind chn ph => Sys2Proof.Machine.execCfgadr kind chn ph s
  | .load => Sys2Proof.Machine.execLoad s
  | .savedef => Sys2Proof.Machine.execSavedef s
  | .emittest lvl => Sys2Proof.Machine.execEmittest lvl s
  | .statrd sel => Sys2Proof.Machine.execStatrd sel s
  | .reservedC => Sys2Proof.Machine.execReservedC s
  | .reservedD => Sys2Proof.Machine.execReservedD s
  | .reservedE => Sys2Proof.Machine.execReservedE s
  | .reset => Sys2Proof.Machine.execReset s

end Sys2Proof.Machine
end

