-- ==== Sys2Proof/Machine/Step.lean ====
section
/-! DEFINITION. One step of the block (00_scope.md rule R18): take the next command word from the port,
decode it, perform it. -/

namespace Sys2Proof.Machine

/-- One step. With no command waiting the block stays as it is (entry 2). -/
def step (s : State) : Host.Outcome State Fault Refusal :=
  match decode s.port with
  | .ok (i, rest) => exec i (s.accept rest)
  | .error .noCommand => .next s.idle

/-- The state whose next step takes the command with the bits `w`: the host presents that word (entry 1). -/
def State.withFetchWord (s : State) (nbits w : Nat) : State := s.present (numeralWord nbits w)

end Sys2Proof.Machine
end

