-- ==== Sys2Proof/Safety.lean ====
section
/-! DEFINITION. What counts as a safe state and a safe use of the block, in the terms the statements use:
the invariant of 10_state.md and 70_reset_and_hazards.md rule R307, the host's contract, runs of TICK
commands, and the output lists of 44_event_dispatch.md rule R230. -/

namespace Sys2Proof.Machine

/-! ## The invariant -/

/-- The counters of a channel are in range for its machine state (R133, R134, R150, R307), and a STEADY
channel holds its target. -/
abbrev Channel.countersOk (c : Channel) : Prop :=
  (c.state = .steady → c.msCount = 0 ∧ c.secCount = 0 ∧ c.dcCur = c.target) ∧
  (c.state = .delay → c.msCount.toNat < 1000 ∧
    (c.secCount.toNat < (c.secDelay c.phase).toNat ∨
      c.secDelay c.phase = 0 ∧ c.secCount = 0 ∧ c.msCount = 0)) ∧
  (c.state = .transit → c.msCount.toNat < c.msPerStep.toNat ∧ c.secCount = 0)

/-- A channel record is legal: the chain position fits the phase and the chain (R37), the step rate is the
derived one (R34, R130), the counters are in range, and a test value is 1 or 254 (R33, R38). -/
abbrev Channel.ok (c : Channel) : Prop :=
  c.phase = c.trig.xor c.seqPos ∧
  c.seqPos.toNat < chainLen c.mode c.trig ∧
  c.msPerStep = deriveMsPerStep c.secTrans c.dc0 c.dc1 ∧
  c.countersOk ∧
  (c.testEn = true → c.testVal = 1 ∨ c.testVal = 254) ∧
  (c.testEn = false → c.testVal = 0)

/-- The power-supervisor registers agree with each other (R192, R193) and the alarm timer is within its
period (R307). -/
abbrev Globals.ok (g : Globals) (p : Params) : Prop :=
  g.overAmp = overCurrent p g.mA ∧
  g.alarmActive = g.faulty ∧
  g.alarmCnt.toNat ≤ p.alarmPeriodMs.toNat

/-- The legal states: the store in canonical form, the parameters within R12, every register legal, and every
channel's chain started by the phase last broadcast (R39, R139, R171). -/
abbrev State.inv (s : State) : Prop :=
  Memory.wf s.cfg = true ∧ s.params.ok ∧ s.g.ok s.params ∧
  ∀ i : ChanIdx, (s.chan i).ok ∧ (s.chan i).trig = s.g.dayNight

/-! ## The host's side -/

/-- The caller contract of R122: a CFGADR names one of the ten channels. -/
def Instr.inContract : Instr → Bool
  | .cfgadr _ chn _ => decide (chn.toNat < 10)
  | .nop | .tick | .eventNightsw _ | .eventTestend _ | .eventShutdown _ | .eventIgnored _ _ => true
  | .eventTest1 _ | .eventTest2 _ | .eventTest3 _ | .eventTest4 _ | .eventTest5 _ => true
  | .eventTest6 _ | .eventTest7 _ | .eventTest8 _ | .eventTest9 _ | .eventTest10 _ => true
  | .dnin _ | .supv _ | .cfgrd _ | .cfgwr _ _ | .load | .savedef | .emittest _ | .statrd _ => true
  | .reservedC | .reservedD | .reservedE | .reset => true

/-- `k` TICK commands, one after the other (`TICKS k` of R110). -/
def tickRun : Nat → State → Result
  | 0, s => .next s
  | k + 1, s =>
    match exec .tick s with
    | .next t => tickRun k t
    | .fault r => .fault r
    | .refused r => .refused r

/-- The sample makes a SUPV see a fault (R192 to R194). -/
def faultSample (p : Params) (raw : Half) : Prop :=
  p.overampMa.toNat < (sample p raw).toNat ∨ raw.toNat < p.uvRaw.toNat

/-- A TICK completes and leaves the record `c` in channel `i`. -/
def TickGives (s : State) (i : ChanIdx) (c : Channel) : Prop :=
  ∃ t, exec .tick s = .next t ∧ t.chan i = c

/-- Every word that has `value` under `mask` decodes to the instruction `i` gives for that word. -/
def RowDecodes (mask value : Word) (i : Word → Instr) : Prop :=
  ∀ w : Word, w &&& mask = value → decodeWord w = i w

/-! ## What the rules list -/

/-- The fields that only LOAD writes (R34), as one value. -/
def Channel.config (c : Channel) : Byte × Byte × Byte × Byte × Byte × Mode × Half :=
  (c.dc0, c.dc1, c.secTrans, c.secDelay0, c.secDelay1, c.mode, c.msPerStep)

/-- The test override of a channel (R38), as one value. -/
def Channel.override (c : Channel) : Bool × Byte := (c.testEn, c.testVal)

/-- The fields that a chain moves through (R36, R37), as one value. -/
def Channel.progress (c : Channel) : ChState × Half × Byte × Phase × Phase × Bool :=
  (c.state, c.msCount, c.secCount, c.phase, c.trig, c.seqPos)

/-- The loaded field that a parameter kind and phase name, as a byte (R72). -/
def Channel.loadedByte (c : Channel) : ParamKind → Phase → Byte
  | .trans, _ => c.secTrans
  | .delay, p => c.secDelay p
  | .dc, p => c.dc p
  | .mode, _ => c.mode.code.setWidth 8

/-- The record that LOAD leaves in channel `i` for the phase `t` (R171), with the offsets of R72 written out
and the test override given. -/
def Channel.fromStore (p : Params) (m : Memory) (t : Phase) (i : ChanIdx) (testEn : Bool)
    (testVal : Byte) : Channel where
  secTrans := m.read i.val
  secDelay0 := m.read (10 + i.val)
  secDelay1 := m.read (20 + i.val)
  dc0 := m.read (30 + i.val)
  dc1 := m.read (40 + i.val)
  mode := clampMode p.modeFallback (m.read (50 + i.val))
  msPerStep := deriveMsPerStep (m.read i.val) (m.read (30 + i.val)) (m.read (40 + i.val))
  trig := t
  seqPos := false
  phase := t
  state := .steady
  msCount := 0
  secCount := 0
  dcCur := if t = .night then m.read (40 + i.val) else m.read (30 + i.val)
  testEn := testEn
  testVal := testVal

/-- What follows the segment at a position of a chain: the phase and position of the next segment, or none
when the chain rests (R140 to R146, row by row). -/
def segmentAfter : Mode → Phase → Bool → Option (Phase × Bool)
  | .dayNight, _, _ => none
  | .dusk, .night, false => some (.day, true)
  | .dusk, .night, true => none
  | .dusk, .day, _ => none
  | .dawn, .day, false => some (.night, true)
  | .dawn, .day, true => none
  | .dawn, .night, _ => none
  | .duskDawn, .night, false => some (.day, true)
  | .duskDawn, .day, false => some (.night, true)
  | .duskDawn, _, true => none
  | .night010, .night, false => some (.day, true)
  | .night010, .night, true => some (.night, false)
  | .night010, .day, _ => none
  | .day010, .day, false => some (.night, true)
  | .day010, .day, true => some (.day, false)
  | .day010, .night, _ => none

/-- The record after the end of a segment (R137), by `segmentAfter`. -/
def Channel.afterSegment (c : Channel) : Channel :=
  match segmentAfter c.mode c.trig c.seqPos with
  | some (p, k) =>
    { c with
      dcCur := c.target, msCount := 0, secCount := 0, phase := p, seqPos := k, state := .delay }
  | none => { c with dcCur := c.target, msCount := 0, secCount := 0, state := .steady }

/-- The test command of a channel index (R103, R224: `EVENT.TESTn` is index `n − 1`). -/
def testCommand (i : ChanIdx) (on : Bool) : Instr :=
  match i with
  | 0 => .eventTest1 on
  | 1 => .eventTest2 on
  | 2 => .eventTest3 on
  | 3 => .eventTest4 on
  | 4 => .eventTest5 on
  | 5 => .eventTest6 on
  | 6 => .eventTest7 on
  | 7 => .eventTest8 on
  | 8 => .eventTest9 on
  | 9 => .eventTest10 on

/-- The channel runs a repeating chain and is in its cycle (R150). -/
abbrev Channel.cycling (c : Channel) : Prop :=
  (c.mode = .night010 ∧ c.trig = .night ∨ c.mode = .day010 ∧ c.trig = .day) ∧ c.state ≠ .steady

/-- The distance between two duty cycles. -/
def dutyDistance (a b : Byte) : Nat := (max a.toNat b.toNat) - (min a.toNat b.toNat)

end Sys2Proof.Machine
end

