-- ==== Sys2Proof/Certificates/Slice0/Obligations.lean ====
section
/-! DEFINITION. The statements for the provers, in the order of OBLIGATIONS.json: encoding, the step, then
the commands family by family, then the rules over all commands and the invariant. A frame is written as an
equation between the next state and the old state with the written fields replaced, so it covers every
register, the store, the output and the port at once. -/

open Sys2Proof Sys2Proof.Machine

/-! ## Encoding -/

/-- Decode and encode agree on every well-formed instruction (R90 to R108). -/
def Obligations.DecodeOfEncodeIsIdentity : Prop :=
  ∀ (i : Instr) (rest : List Word), i.wf = true →
    decodeWord (encode i) = i ∧ decode (encode i :: rest) = .ok (i, rest)

/-- Encoding what a word decodes to gives the word back with the bits no field names cleared (R91). -/
def Obligations.EncodeOfDecodeKeepsNamedBits : Prop :=
  ∀ w : Word, encode (decodeWord w) = w &&& namedBits (opField w)

/-- Every word decodes to a well-formed instruction and lies in that instruction's row of
opcode_table.json. -/
def Obligations.DecodeLandsInItsTableRow : Prop :=
  ∀ w : Word, (decodeWord w).wf = true ∧ w &&& tableMask (decodeWord w) = tableMatch (decodeWord w)

/-- R91: two command words that agree on the bits their format names have the same effect. -/
def Obligations.UnnamedBitsHaveNoEffect : Prop :=
  ∀ (s : State) (w w' : Word) (rest : List Word),
    opField w = opField w' → w &&& namedBits (opField w) = w' &&& namedBits (opField w) →
    step { s with port := w :: rest } = step { s with port := w' :: rest }

/-- Words of 95_test_vectors.md section 2.1 decode as that table says. -/
def Obligations.SpecWordsDecode : Prop :=
  decodeWord 0x0FFFFFFF = .nop ∧ decodeWord 0x20FE0000 = .eventNightsw false ∧
  decodeWord 0x2003000C = .eventShutdown true ∧ decodeWord 0x2000000A = .eventTest10 false ∧
  decodeWord 0x2001000D = .eventIgnored true 13 ∧ decodeWord 0x3FFFFFFE = .dnin .day ∧
  decodeWord 0x4001FFFF = .supv 65535 ∧ decodeWord 0x5FFF0000 = .cfgrd 255 ∧
  decodeWord 0x6F3BAB07 = .cfgwr 59 7 ∧ decodeWord 0x7000FF9F = .cfgadr .mode 9 .night ∧
  decodeWord 0x8ABCDEF0 = .load ∧ decodeWord 0xB0000110 = .statrd 0x10

/-! ## The step -/

/-- A step takes the first waiting word, and performs the instruction it decodes to on a state whose output
is empty. That commands wait in a list of words is the model's choice (entry 1), and so is the output field
that a step empties (entry 3). -/
def Obligations.StepRunsDecodedCommand : Prop :=
  ∀ (s : State) (w : Word) (rest : List Word) (i : Instr),
    s.port = w :: rest → decodeWord w = i → i.wf = true →
    step s = exec i { s with port := rest, out := { events := [], response := none } }

/-- Presenting the word of a well-formed instruction makes the next step perform it. How a word reaches the
port and the emptied output field are the model's choice (entries 1 and 3). -/
def Obligations.PresentedWordRunsNext : Prop :=
  ∀ (s : State) (i : Instr), i.wf = true →
    step (s.withFetchWord 32 (encode i).toNat) =
      exec i { s with out := { events := [], response := none } }

/-- Every command and every step completes, and there is no fault to raise (R271). That a step with no command
waiting is a step, and that CFGADR completes for a channel number of 10 or more, which R122 would have a model
refuse, are the model's choice (entries 2 and 7). -/
def Obligations.EveryCommandCompletes : Prop :=
  (∀ (i : Instr) (s : State), ∃ t, exec i s = .next t) ∧ (∀ s : State, ∃ t, step s = .next t) ∧
  ¬ Nonempty Fault

/-- The model's choice (entries 2 and 3): with no command waiting, a step changes nothing and gives nothing
out. -/
def Obligations.StepWithoutCommandIdles : Prop :=
  ∀ s : State, s.port = [] → step s = .next { s with out := { events := [], response := none } }

/-- Every step takes at most one word from the port and leaves the implementation parameters alone. The port,
the parameters as a field of State, and the step with an empty port are the model's choice (entries 1, 4
and 2). -/
def Obligations.StepConsumesOneWordKeepsParameters : Prop :=
  ∀ s t : State, step s = .next t → t.port = s.port.tail ∧ t.params = s.params

/-! ## Commands without an effect -/

/-- R250, R251: NOP and the three reserved operations leave the whole state as it is. -/
def Obligations.NoOperationCommandsChangeNothing : Prop :=
  RowDecodes 0xF0000000 0x00000000 (fun _ => .nop) ∧
  RowDecodes 0xF0000000 0xC0000000 (fun _ => .reservedC) ∧
  RowDecodes 0xF0000000 0xD0000000 (fun _ => .reservedD) ∧
  RowDecodes 0xF0000000 0xE0000000 (fun _ => .reservedE) ∧
  ∀ s : State, exec .nop s = .next s ∧ exec .reservedC s = .next s ∧
    exec .reservedD s = .next s ∧ exec .reservedE s = .next s

/-- R227: an event number of 13 or more selects EVENT.IGNORED, which does nothing. -/
def Obligations.UnknownEventsAreIgnored : Prop :=
  (∀ w : Word, w &&& 0xF0000000 = 0x20000000 → 13 ≤ (w.extractLsb' 0 16).toNat →
    decodeWord w = .eventIgnored (w.getLsbD 16) (w.extractLsb' 0 16)) ∧
  ∀ (on : Bool) (en : Half) (s : State), exec (.eventIgnored on en) s = .next s

/-! ## The address decoder -/

/-- R73: offsets never collide across groups or channels, and the offsets are exactly 0 to 59. -/
def Obligations.AddressMapIsOneToOneOntoStore : Prop :=
  (∀ (k k' : ParamKind) (c c' : BitVec 4) (p p' : Phase), c.toNat < 10 → c'.toNat < 10 →
    cfgAddr k c p = cfgAddr k' c' p' → groupIndex k p = groupIndex k' p' ∧ c = c') ∧
  (∀ (k : ParamKind) (c : BitVec 4) (p : Phase), c.toNat < 10 → (cfgAddr k c p).toNat < 60) ∧
  ∀ o : Nat, o < 60 →
    ∃ (k : ParamKind) (c : BitVec 4) (p : Phase), c.toNat < 10 ∧ (cfgAddr k c p).toNat = o

/-- R121 on the decoder's domain: CFGADR, with the kind codes of R106, responds `10 * group + channel` and
changes nothing else. -/
def Obligations.CfgadrRespondsStoreOffset : Prop :=
  RowDecodes 0xF0000000 0x70000000 (fun w =>
    .cfgadr
      (if w.extractLsb' 8 2 = 0 then .trans else if w.extractLsb' 8 2 = 1 then .delay
        else if w.extractLsb' 8 2 = 2 then .dc else .mode)
      (w.extractLsb' 4 4) (if w.getLsbD 0 then .night else .day)) ∧
  ∀ (k : ParamKind) (c : BitVec 4) (p : Phase) (s : State), c.toNat < 10 →
    ∃ v : Word,
      exec (.cfgadr k c p) s = .next { s with out := { s.out with response := some v } } ∧
      v.toNat = c.toNat + (match k, p with
        | .trans, _ => 0
        | .delay, .day => 10
        | .delay, .night => 20
        | .dc, .day => 30
        | .dc, .night => 40
        | .mode, _ => 50)

/-- The model's choice (entry 7): for a channel number of 10 or more CFGADR responds the same formula. -/
def Obligations.CfgadrOutsideDomainUsesFormula : Prop :=
  ∀ (k : ParamKind) (c : BitVec 4) (p : Phase) (s : State), 10 ≤ c.toNat →
    ∃ v : Word,
      exec (.cfgadr k c p) s = .next { s with out := { s.out with response := some v } } ∧
      v.toNat = 10 * groupIndex k p + c.toNat ∧ v.toNat ≤ 65

/-! ## The store -/

/-- R176: CFGRD responds the store byte, 0 for an unmapped offset, and changes nothing else. -/
def Obligations.CfgrdRespondsStoreByte : Prop :=
  RowDecodes 0xF0000000 0x50000000 (fun w => .cfgrd (w.extractLsb' 16 8)) ∧
  ∀ (off : Byte) (s : State), ∃ v : Word,
    exec (.cfgrd off) s = .next { s with out := { s.out with response := some v } } ∧
    (off.toNat < 60 → v.toNat = (s.cfg.read off.toNat).toNat) ∧ (60 ≤ off.toNat → v = 0)

/-- R177: CFGWR changes exactly the addressed store byte, nothing for an unmapped offset, and leaves the
channel registers and everything else alone. -/
def Obligations.CfgwrWritesOneStoreByte : Prop :=
  RowDecodes 0xF0000000 0x60000000 (fun w => .cfgwr (w.extractLsb' 16 8) (w.extractLsb' 0 8)) ∧
  ∀ (off data : Byte) (s : State), ∃ t : State,
    exec (.cfgwr off data) s = .next t ∧ t = { s with cfg := t.cfg } ∧
    (off.toNat < 60 → t.cfg.read off.toNat = data) ∧
    (∀ a : Nat, a ≠ off.toNat → t.cfg.read a = s.cfg.read a) ∧
    (60 ≤ off.toNat → t = s)

/-- R82: a CFGRD after a CFGWR of the same mapped offset responds the written byte; a CFGRD of another
offset responds what it would have responded before. -/
def Obligations.StoreReadsSeeEarlierWrites : Prop :=
  ∀ (off data off' : Byte) (s : State), off.toNat < 60 → ∃ t u u' : State,
    exec (.cfgwr off data) s = .next t ∧ exec (.cfgrd off') t = .next u ∧
    exec (.cfgrd off') s = .next u' ∧
    (off' = off → ∃ v : Word, u.out.response = some v ∧ v.toNat = data.toNat) ∧
    (off' ≠ off → u.out.response = u'.out.response)

/-! ## LOAD and SAVEDEF -/

/-- R171: LOAD refills every channel from the store and leaves the test overrides, the global registers, the
store and the rest alone. -/
def Obligations.LoadRefillsEveryChannel : Prop :=
  RowDecodes 0xF0000000 0x80000000 (fun _ => .load) ∧
  ∀ s : State, ∃ t : State, exec .load s = .next t ∧ t = { s with ch := t.ch } ∧
    ∀ i : ChanIdx, t.chan i =
      Channel.fromStore s.params s.cfg s.g.dayNight i (s.chan i).testEn (s.chan i).testVal

/-- R178: after LOAD, CFGRD at the decoder's offset returns the byte that LOAD read, and the loaded field
equals it, the mode when the byte is at most 5. -/
def Obligations.LoadThenReadRoundTrips : Prop :=
  ∀ (s : State) (i : ChanIdx) (k : ParamKind) (p : Phase), ∃ (t u : State) (b : Byte),
    exec .load s = .next t ∧ exec (.cfgrd (cfgAddr k (BitVec.ofNat 4 i.val) p)) t = .next u ∧
    b = s.cfg.read (cfgAddr k (BitVec.ofNat 4 i.val) p).toNat ∧
    u.out.response = some (b.setWidth 32) ∧
    (k ≠ .mode → (t.chan i).loadedByte k p = b) ∧
    (k = .mode → b.toNat ≤ 5 → (t.chan i).loadedByte k p = b)

/-- R173 with the codes of R104: a Mode byte of 0 to 5 loads as the mode that R104 gives that code; any other
loads MODE_FALLBACK, which is DAYNIGHT at reset. -/
def Obligations.ModeByteIsClampedAtLoad : Prop :=
  (∀ (s : State) (i : ChanIdx) (b : Byte), b = s.cfg.read (50 + i.val) →
    ∃ t : State, exec .load s = .next t ∧
      (b = 0 → (t.chan i).mode = .dayNight) ∧ (b = 1 → (t.chan i).mode = .dusk) ∧
      (b = 2 → (t.chan i).mode = .dawn) ∧ (b = 3 → (t.chan i).mode = .duskDawn) ∧
      (b = 4 → (t.chan i).mode = .night010) ∧ (b = 5 → (t.chan i).mode = .day010) ∧
      (6 ≤ b.toNat → (t.chan i).mode = s.params.modeFallback)) ∧
  State.reset.params.modeFallback = .dayNight

/-- R175, R181: SAVEDEF overwrites all sixty store bytes with DEFAULT_NV and then loads; with the defaults of
R181 every channel is STEADY at 0 by day and 255 at night, with a step of 19 ms. -/
def Obligations.SavedefWritesDefaultsAndLoads : Prop :=
  RowDecodes 0xF0000000 0x90000000 (fun _ => .savedef) ∧
  ∀ s : State, ∃ t : State, exec .savedef s = .next t ∧ t = { s with ch := t.ch, cfg := t.cfg } ∧
    (∀ a : Nat, 60 ≤ a → t.cfg.read a = s.cfg.read a) ∧
    (∀ i : ChanIdx,
      t.cfg.read i.val = s.params.defaultNv.trans ∧
      t.cfg.read (10 + i.val) = s.params.defaultNv.delay0 ∧
      t.cfg.read (20 + i.val) = s.params.defaultNv.delay1 ∧
      t.cfg.read (30 + i.val) = s.params.defaultNv.dc0 ∧
      t.cfg.read (40 + i.val) = s.params.defaultNv.dc1 ∧
      t.cfg.read (50 + i.val) = s.params.defaultNv.mode ∧
      t.chan i =
        Channel.fromStore s.params t.cfg s.g.dayNight i (s.chan i).testEn (s.chan i).testVal) ∧
    (s.params.defaultNv =
        { trans := 5, delay0 := 0, delay1 := 0, dc0 := 0, dc1 := 255, mode := 0 } →
      ∀ i : ChanIdx, (t.chan i).state = .steady ∧ (t.chan i).mode = .dayNight ∧
        (t.chan i).msPerStep = 19 ∧ (s.g.dayNight = .day → (t.chan i).dcCur = 0) ∧
        (s.g.dayNight = .night → (t.chan i).dcCur = 255))

/-- R130: the derived step rate is the clamped quotient and lies in 1 to 63750. -/
def Obligations.StepRateIsClampedQuotient : Prop :=
  ∀ secTrans dc0 dc1 : Byte,
    (deriveMsPerStep secTrans dc0 dc1).toNat =
      max ((secTrans.toNat * 1000) / max (dutyDistance dc0 dc1) 4) 1 ∧
    1 ≤ (deriveMsPerStep secTrans dc0 dc1).toNat ∧
    (deriveMsPerStep secTrans dc0 dc1).toNat ≤ 63750

/-! ## TICK -/

/-- R131, R138: TICK advances each channel by its own tick unless the engine is frozen, and counts the alarm
timer down in both cases; it changes nothing else. -/
def Obligations.TickAdvancesLanesAndAlarmTimer : Prop :=
  RowDecodes 0xF0000000 0x10000000 (fun _ => .tick) ∧
  ∀ s : State, ∃ t : State, exec .tick s = .next t ∧
    t = { s with ch := t.ch, g := { s.g with alarmCnt := t.g.alarmCnt } } ∧
    t.g.alarmCnt.toNat = s.g.alarmCnt.toNat - 1 ∧
    (s.params.freezeOnPowerFault = true → s.g.alarmActive = true → t.ch = s.ch) ∧
    (s.params.freezeOnPowerFault = false ∨ s.g.alarmActive = false →
      ∀ i : ChanIdx, t.chan i = (s.chan i).tick)

/-- R135 and the corner case of R131: STEADY channels are unchanged, and a TICK with every channel STEADY and
an idle alarm timer changes nothing. -/
def Obligations.TickLeavesSteadyChannelsAlone : Prop :=
  (∀ (s : State) (i : ChanIdx), (s.chan i).state = .steady → TickGives s i (s.chan i)) ∧
  ∀ s : State, (∀ i : ChanIdx, (s.chan i).state = .steady) → s.g.alarmCnt = 0 →
    exec .tick s = .next s

/-- R134: one TICK of a channel in DELAY. -/
def Obligations.DelayTickCountsThenLeaves : Prop :=
  ∀ (s : State) (i : ChanIdx), s.frozen = false → (s.chan i).ok → (s.chan i).state = .delay →
    ((s.chan i).msCount.toNat + 1 < 1000 → (s.chan i).secCount ≠ (s.chan i).secDelay (s.chan i).phase →
      TickGives s i { s.chan i with msCount := (s.chan i).msCount + 1 }) ∧
    ((s.chan i).msCount.toNat + 1 < 1000 → (s.chan i).secCount = (s.chan i).secDelay (s.chan i).phase →
      TickGives s i { s.chan i with state := .transit, msCount := 0, secCount := 0 }) ∧
    ((s.chan i).msCount.toNat + 1 = 1000 →
      (s.chan i).secCount.toNat + 1 ≠ ((s.chan i).secDelay (s.chan i).phase).toNat →
      TickGives s i { s.chan i with msCount := 0, secCount := (s.chan i).secCount + 1 }) ∧
    ((s.chan i).msCount.toNat + 1 = 1000 →
      (s.chan i).secCount.toNat + 1 = ((s.chan i).secDelay (s.chan i).phase).toNat →
      TickGives s i { s.chan i with state := .transit, msCount := 0, secCount := 0 })

/-- R133, R136, R137 and the chain rows R141 to R146: one TICK of a channel in TRANSIT. Short of the target it
counts, and steps by 1 when the count reaches `msPerStep`; at the target the segment ends and the next one of
the chain table follows. -/
def Obligations.TransitTickRampsAndEndsSegment : Prop :=
  ∀ (s : State) (i : ChanIdx) (c : Channel), c = s.chan i → s.frozen = false → c.ok → c.state = .transit →
    (c.secTrans = 0 → TickGives s i c.afterSegment) ∧
    (c.secTrans ≠ 0 → c.dcCur = c.target → TickGives s i c.afterSegment) ∧
    (c.secTrans ≠ 0 → c.dcCur ≠ c.target → c.msCount.toNat + 1 ≠ c.msPerStep.toNat →
      TickGives s i { c with msCount := c.msCount + 1 }) ∧
    (c.secTrans ≠ 0 → c.msCount.toNat + 1 = c.msPerStep.toNat →
      c.dcCur.toNat + 1 = c.target.toNat ∨ c.dcCur.toNat = c.target.toNat + 1 →
      TickGives s i c.afterSegment) ∧
    (c.secTrans ≠ 0 → c.msCount.toNat + 1 = c.msPerStep.toNat →
      c.dcCur.toNat + 1 < c.target.toNat →
      TickGives s i { c with msCount := 0, dcCur := c.dcCur + 1 }) ∧
    (c.secTrans ≠ 0 → c.msCount.toNat + 1 = c.msPerStep.toNat →
      c.target.toNat + 1 < c.dcCur.toNat →
      TickGives s i { c with msCount := 0, dcCur := c.dcCur - 1 })

/-- R147: a segment lasts `max(1, 1000 * d)` TICKs in DELAY and then, in TRANSIT, 1 TICK when `secTrans` is 0
and `max(1, distance * msPerStep)` otherwise; the last of them ends the segment. -/
def Obligations.SegmentLastsItsDelayAndRamp : Prop :=
  ∀ (s : State) (i : ChanIdx) (c : Channel), c = s.chan i → s.frozen = false → c.ok →
    c.state = .delay → c.msCount = 0 → c.secCount = 0 →
    ∀ (a b : Nat), a = max 1 (1000 * (c.secDelay c.phase).toNat) →
      b = (if c.secTrans = 0 then 1 else max 1 (dutyDistance c.dcCur c.target * c.msPerStep.toNat)) →
      (∀ k : Nat, k < a → ∃ t, tickRun k s = .next t ∧ (t.chan i).state = .delay) ∧
      (∀ k : Nat, a ≤ k → k < a + b → ∃ t, tickRun k s = .next t ∧ (t.chan i).state = .transit) ∧
      ∃ t, tickRun (a + b) s = .next t ∧ t.chan i = c.afterSegment

/-- R148: in TRANSIT `dcCur` moves by 1 toward the target, or to it when `secTrans` is 0, and never past it;
uninterrupted TICKs end the TRANSIT, at the target, within `max(1, 255 * msPerStep)` TICKs, at most 16256250. -/
def Obligations.TransitConvergesWithoutOvershoot : Prop :=
  ∀ (s : State) (i : ChanIdx) (c : Channel), c = s.chan i → c.ok → c.state = .transit →
    (∃ t, exec .tick s = .next t ∧
      dutyDistance (t.chan i).dcCur c.target ≤ dutyDistance c.dcCur c.target ∧
      (c.dcCur.toNat ≤ c.target.toNat →
        c.dcCur.toNat ≤ (t.chan i).dcCur.toNat ∧ (t.chan i).dcCur.toNat ≤ c.target.toNat) ∧
      (c.target.toNat ≤ c.dcCur.toNat →
        c.target.toNat ≤ (t.chan i).dcCur.toNat ∧ (t.chan i).dcCur.toNat ≤ c.dcCur.toNat) ∧
      (c.secTrans ≠ 0 → dutyDistance (t.chan i).dcCur c.dcCur ≤ 1) ∧
      (c.secTrans = 0 → (t.chan i).dcCur = c.dcCur ∨ (t.chan i).dcCur = c.target)) ∧
    (s.frozen = false → ∃ k t, k ≤ max 1 (255 * c.msPerStep.toNat) ∧ k ≤ 16256250 ∧
      tickRun k s = .next t ∧ (t.chan i).state ≠ .transit ∧ (t.chan i).dcCur = c.target)

/-- R150: a chain that does not repeat ends in STEADY at its last target; a repeating chain never reaches
STEADY and leaves its cycle only through a trigger or a LOAD. -/
def Obligations.ChainsEndSteadyOrCycle : Prop :=
  (∀ (s t : State) (i : ChanIdx), exec .tick s = .next t → (s.chan i).ok →
    (s.chan i).state = .transit →
    segmentAfter (s.chan i).mode (s.chan i).trig (s.chan i).seqPos = none →
    (t.chan i).state ≠ .transit →
    (t.chan i).state = .steady ∧ (t.chan i).phase = (s.chan i).phase ∧
      (t.chan i).dcCur = (t.chan i).dc (t.chan i).phase) ∧
  ∀ (j : Instr) (s t : State) (i : ChanIdx), exec j s = .next t → (s.chan i).cycling →
    (∀ on, j ≠ .eventNightsw on) → (∀ lvl, j ≠ .dnin lvl) → j ≠ .load → j ≠ .savedef → j ≠ .reset →
    (t.chan i).cycling

/-- R132: the channel updates of one TICK are independent lanes. -/
def Obligations.TickLanesAreIndependent : Prop :=
  ∀ (s s' : State) (i : ChanIdx), s.chan i = s'.chan i →
    s.params.freezeOnPowerFault = s'.params.freezeOnPowerFault →
    s.g.alarmActive = s'.g.alarmActive →
    ∃ t t' : State, exec .tick s = .next t ∧ exec .tick s' = .next t' ∧ t.chan i = t'.chan i

/-! ## Triggers and the local input -/

/-- R222 with R139 and R170: the bus night switch restarts every channel's chain for its phase and emits
nothing. -/
def Obligations.NightSwitchRestartsEveryChannel : Prop :=
  RowDecodes 0xF000FFFF 0x20000000 (fun w => .eventNightsw (w.getLsbD 16)) ∧
  ∀ (on : Bool) (s : State), ∃ t : State, exec (.eventNightsw on) s = .next t ∧
    t = { s with ch := t.ch, g := { s.g with dayNight := if on then .night else .day } } ∧
    ∀ i : ChanIdx, t.chan i =
      { s.chan i with
        trig := if on then .night else .day
        seqPos := false
        phase := if on then .night else .day
        state := .delay
        msCount := 0
        secCount := 0 }

/-- R228: DNIN does nothing when the level equals `g.dnInput`; on a change it records the level, broadcasts
it and emits the night-switch echo. -/
def Obligations.LocalInputActsOnChange : Prop :=
  RowDecodes 0xF0000000 0x30000000 (fun w => .dnin (if w.getLsbD 0 then .night else .day)) ∧
  ∀ (lvl : Phase) (s : State),
    (lvl = s.g.dnInput → exec (.dnin lvl) s = .next s) ∧
    (lvl ≠ s.g.dnInput → ∃ t : State, exec (.dnin lvl) s = .next t ∧
      t = { s with
        ch := t.ch
        g := { s.g with dnInput := lvl, dayNight := lvl }
        out := { s.out with events := s.out.events ++ [⟨.night, decide (lvl = .night)⟩] } } ∧
      ∀ i : ChanIdx, t.chan i =
        { s.chan i with
          trig := lvl, seqPos := false, phase := lvl, state := .delay, msCount := 0, secCount := 0 })

/-- R292: after RESET every channel holds its day target; DNIN with DAY is no change, DNIN with NIGHT starts
the NIGHT chains. -/
def Obligations.FirstLevelAfterReset : Prop :=
  ∀ s : State, ∃ t u : State, exec .reset s = .next t ∧
    t.g.dayNight = .day ∧ t.g.dnInput = .day ∧
    (∀ i : ChanIdx, (t.chan i).state = .steady ∧ (t.chan i).dcCur = (t.chan i).dc .day) ∧
    exec (.dnin .day) t = .next t ∧ exec (.dnin .night) t = .next u ∧
    ∀ i : ChanIdx, (u.chan i).state = .delay ∧ (u.chan i).phase = .night ∧ (u.chan i).trig = .night

/-! ## Test and shutdown -/

/-- R224: each of the ten test events forces its own channel to 254 or 1 and changes nothing else. -/
def Obligations.TestEventsForceOneChannel : Prop :=
  RowDecodes 0xF000FFFF 0x20000001 (fun w => .eventTest1 (w.getLsbD 16)) ∧
  RowDecodes 0xF000FFFF 0x20000002 (fun w => .eventTest2 (w.getLsbD 16)) ∧
  RowDecodes 0xF000FFFF 0x20000003 (fun w => .eventTest3 (w.getLsbD 16)) ∧
  RowDecodes 0xF000FFFF 0x20000004 (fun w => .eventTest4 (w.getLsbD 16)) ∧
  RowDecodes 0xF000FFFF 0x20000005 (fun w => .eventTest5 (w.getLsbD 16)) ∧
  RowDecodes 0xF000FFFF 0x20000006 (fun w => .eventTest6 (w.getLsbD 16)) ∧
  RowDecodes 0xF000FFFF 0x20000007 (fun w => .eventTest7 (w.getLsbD 16)) ∧
  RowDecodes 0xF000FFFF 0x20000008 (fun w => .eventTest8 (w.getLsbD 16)) ∧
  RowDecodes 0xF000FFFF 0x20000009 (fun w => .eventTest9 (w.getLsbD 16)) ∧
  RowDecodes 0xF000FFFF 0x2000000A (fun w => .eventTest10 (w.getLsbD 16)) ∧
  ∀ (on : Bool) (s : State) (i : Instr) (n : ChanIdx),
    (i, n) ∈ [(Instr.eventTest1 on, (0 : ChanIdx)), (.eventTest2 on, 1), (.eventTest3 on, 2),
      (.eventTest4 on, 3), (.eventTest5 on, 4), (.eventTest6 on, 5), (.eventTest7 on, 6),
      (.eventTest8 on, 7), (.eventTest9 on, 8), (.eventTest10 on, 9)] →
    ∃ t : State, exec i s = .next t ∧ t = { s with ch := t.ch } ∧
      t.chan n = { s.chan n with testEn := true, testVal := if on then 254 else 1 } ∧
      ∀ j : ChanIdx, j ≠ n → t.chan j = s.chan j

/-- R225: TESTEND of either polarity releases every test override and changes nothing else. -/
def Obligations.TestEndReleasesEveryChannel : Prop :=
  RowDecodes 0xF000FFFF 0x2000000B (fun w => .eventTestend (w.getLsbD 16)) ∧
  ∀ (on : Bool) (s : State), ∃ t : State, exec (.eventTestend on) s = .next t ∧
    t = { s with ch := t.ch } ∧
    ∀ i : ChanIdx, t.chan i = { s.chan i with testEn := false, testVal := 0 }

/-- R226: SHUTDOWN on sets the shutdown override alone; off clears it and sets every `dcCur` to the loaded
target of its channel's phase. -/
def Obligations.ShutdownForcesAndRestores : Prop :=
  RowDecodes 0xF000FFFF 0x2000000C (fun w => .eventShutdown (w.getLsbD 16)) ∧
  ∀ s : State,
    exec (.eventShutdown true) s = .next { s with g := { s.g with shutdown := true } } ∧
    ∃ t : State, exec (.eventShutdown false) s = .next t ∧
      t = { s with ch := t.ch, g := { s.g with shutdown := false } } ∧
      ∀ i : ChanIdx, t.chan i = { s.chan i with dcCur := (s.chan i).dc (s.chan i).phase }

/-- A shutdown pair forces every output to 0 and then, with no other override active, shows the loaded target
of each channel's phase; engine state and test overrides survive it (R226, R199). -/
def Obligations.ShutdownPairRestoresLoadedTargets : Prop :=
  ∀ s : State, ∃ t u : State,
    exec (.eventShutdown true) s = .next t ∧ exec (.eventShutdown false) t = .next u ∧
    (∀ i : ChanIdx, t.duty i = 0) ∧
    ∀ i : ChanIdx,
      (s.g.alarmActive = false → (s.chan i).testEn = false →
        u.duty i = (s.chan i).dc (s.chan i).phase) ∧
      (s.g.alarmActive = false → (s.chan i).testEn = true → u.duty i = (s.chan i).testVal) ∧
      (s.g.alarmActive = true → u.duty i = 0) ∧
      (u.chan i).progress = (s.chan i).progress ∧ (u.chan i).override = (s.chan i).override

/-- R229: EMITTEST emits the test message with its polarity and changes nothing else. -/
def Obligations.EmittestEmitsTestMessage : Prop :=
  RowDecodes 0xF0000000 0xA0000000 (fun w => .emittest (w.getLsbD 0)) ∧
  ∀ (lvl : Bool) (s : State), exec (.emittest lvl) s =
    .next { s with out := { s.out with events := s.out.events ++ [⟨.test, lvl⟩] } }

/-! ## The power supervisor -/

/-- R192 with R191, R193, R194 and R196: everything one supervisory pass writes, for every value of the OPEN
parameters. -/
def Obligations.SupervisoryPassSetsFaultState : Prop :=
  RowDecodes 0xF0000000 0x40000000 (fun w => .supv (w.extractLsb' 0 16)) ∧
  ∀ (raw : Half) (s : State) (mA : Nat) (fault : Bool),
    mA = (if s.params.adcZero.toNat < raw.toNat then
      min 65535 (((raw.toNat - s.params.adcZero.toNat) * s.params.maNum) / s.params.maDen) else 0) →
    fault = (decide (s.params.overampMa.toNat < mA) || decide (raw.toNat < s.params.uvRaw.toNat)) →
    ∃ t : State, exec (.supv raw) s = .next t ∧ t = { s with g := t.g, out := t.out } ∧
      t.g = { s.g with
        mA := BitVec.ofNat 16 mA
        overAmp := decide (s.params.overampMa.toNat < mA)
        underVolt := decide (raw.toNat < s.params.uvRaw.toNat)
        alarmActive := fault
        alarmCnt := if fault = true ∧ s.g.alarmCnt = 0 then s.params.alarmPeriodMs else s.g.alarmCnt } ∧
      t.g.mA.toNat = mA ∧
      t.out = { s.out with events := s.out.events ++
        (if fault = true ∧ s.g.alarmActive = false then [⟨.alarm, true⟩]
         else if fault = false ∧ s.g.alarmActive = true then [⟨.alarm, false⟩] else []) }

/-- R202: a faulting SUPV forces every output to 0, and a clearing SUPV with no TICK between restores every
output to its pre-fault value. -/
def Obligations.FaultBlacksOutThenRestoresExactly : Prop :=
  ∀ (s : State) (raw raw' : Half), s.g.alarmActive = false →
    faultSample s.params raw → ¬ faultSample s.params raw' →
    ∃ t u : State, exec (.supv raw) s = .next t ∧ exec (.supv raw') t = .next u ∧
      (∀ i : ChanIdx, t.duty i = 0 ∧ t.chan i = s.chan i) ∧
      ∀ i : ChanIdx, u.duty i = s.duty i

/-- R197, R200: a fault seen with the timer idle sounds the buzzer for exactly ALARM_ON_MS ticks, and the timer
reaches 0 after ALARM_PERIOD_MS ticks. -/
def Obligations.AlarmSoundsForItsOnTime : Prop :=
  ∀ (s : State) (raw : Half), s.params.ok → s.g.alarmCnt = 0 → faultSample s.params raw →
    ∃ t : State, exec (.supv raw) s = .next t ∧
      ∀ k : Nat, ∃ u : State, tickRun k t = .next u ∧
        (u.buzzer = true ↔ k < s.params.alarmOnMs.toNat) ∧
        (u.g.alarmCnt = 0 ↔ s.params.alarmPeriodMs.toNat ≤ k)

/-- R199: the fixed priority of the output multiplexer. -/
def Obligations.OutputPriority : Prop :=
  ∀ (s : State) (i : ChanIdx),
    (s.g.alarmActive = true → s.duty i = 0) ∧
    (s.g.alarmActive = false → s.g.shutdown = true → s.duty i = 0) ∧
    (s.g.alarmActive = false → s.g.shutdown = false → (s.chan i).testEn = true →
      s.duty i = (s.chan i).testVal) ∧
    (s.g.alarmActive = false → s.g.shutdown = false → (s.chan i).testEn = false →
      s.duty i = (s.chan i).dcCur)

/-! ## The status map -/

/-- R44, R50: what STATRD responds for GSTAT and ASTAT, bit by bit, and that both read 0 after RESET; nothing
else changes. -/
def Obligations.StatrdGlobalRegisters : Prop :=
  RowDecodes 0xF0000000 0xB0000000 (fun w => .statrd (w.extractLsb' 0 8)) ∧
  (∀ s : State, ∃ t u u' : State, exec .reset s = .next t ∧ exec (.statrd 0x00) t = .next u ∧
    exec (.statrd 0x01) t = .next u' ∧ u.out.response = some 0 ∧ u'.out.response = some 0) ∧
  ∀ s : State, ∃ v a : Word,
    exec (.statrd 0x00) s = .next { s with out := { s.out with response := some v } } ∧
    v.getLsbD 0 = decide (s.g.dayNight = .night) ∧ v.getLsbD 1 = decide (s.g.dnInput = .night) ∧
    v.getLsbD 2 = s.g.shutdown ∧ v.getLsbD 3 = s.g.overAmp ∧ v.getLsbD 4 = s.g.underVolt ∧
    v.getLsbD 5 = s.g.alarmActive ∧ v.getLsbD 6 = s.buzzer ∧ v.extractLsb' 7 9 = 0 ∧
    v.extractLsb' 16 16 = s.g.mA ∧
    exec (.statrd 0x01) s = .next { s with out := { s.out with response := some a } } ∧
    a.extractLsb' 0 16 = s.g.alarmCnt ∧ a.extractLsb' 16 16 = 0

/-- R45 to R48: what STATRD responds for the four registers of each channel, field by field, with the mode
codes of R104 and the state codes of R105; nothing else changes. -/
def Obligations.StatrdChannelRegisters : Prop :=
  ∀ (s : State) (i : ChanIdx), ∃ st tm cf cg : Word,
    exec (.statrd (BitVec.ofNat 8 (0x10 + i.val))) s =
      .next { s with out := { s.out with response := some st } } ∧
    st.extractLsb' 0 2 = (match (s.chan i).state with
      | .steady => 0
      | .transit => 1
      | .delay => 2) ∧
    st.getLsbD 2 = decide ((s.chan i).phase = .night) ∧
    st.getLsbD 3 = decide ((s.chan i).trig = .night) ∧ st.getLsbD 4 = (s.chan i).seqPos ∧
    st.getLsbD 5 = (s.chan i).testEn ∧ st.extractLsb' 6 2 = 0 ∧
    st.extractLsb' 8 8 = (s.chan i).dcCur ∧ st.extractLsb' 16 8 = (s.chan i).testVal ∧
    st.extractLsb' 24 8 = s.duty i ∧
    exec (.statrd (BitVec.ofNat 8 (0x20 + i.val))) s =
      .next { s with out := { s.out with response := some tm } } ∧
    tm.extractLsb' 0 16 = (s.chan i).msCount ∧ tm.extractLsb' 16 8 = (s.chan i).secCount ∧
    tm.extractLsb' 24 8 = 0 ∧
    exec (.statrd (BitVec.ofNat 8 (0x30 + i.val))) s =
      .next { s with out := { s.out with response := some cf } } ∧
    cf.extractLsb' 0 8 = (s.chan i).dc0 ∧ cf.extractLsb' 8 8 = (s.chan i).dc1 ∧
    cf.extractLsb' 16 8 = (s.chan i).secTrans ∧
    cf.extractLsb' 24 3 = (match (s.chan i).mode with
      | .dayNight => 0
      | .dusk => 1
      | .dawn => 2
      | .duskDawn => 3
      | .night010 => 4
      | .day010 => 5) ∧
    cf.extractLsb' 27 5 = 0 ∧
    exec (.statrd (BitVec.ofNat 8 (0x40 + i.val))) s =
      .next { s with out := { s.out with response := some cg } } ∧
    cg.extractLsb' 0 8 = (s.chan i).secDelay0 ∧ cg.extractLsb' 8 8 = (s.chan i).secDelay1 ∧
    cg.extractLsb' 16 16 = (s.chan i).msPerStep

/-- R43, R253: STATRD of every other selector responds 0 and changes nothing else. -/
def Obligations.StatrdUnlistedSelectorsReadZero : Prop :=
  ∀ (sel : Byte) (s : State), 2 ≤ sel.toNat →
    (∀ i : Nat, i < 10 → sel.toNat ≠ 0x10 + i ∧ sel.toNat ≠ 0x20 + i ∧ sel.toNat ≠ 0x30 + i ∧
      sel.toNat ≠ 0x40 + i) →
    exec (.statrd sel) s = .next { s with out := { s.out with response := some 0 } }

/-! ## Reset -/

/-- RESET gives every register its reset value, reloads the channels from the unchanged store, and announces
power-on (R252). That the waiting words and the parameters are state, and that RESET leaves them unchanged, is
the model's choice (entries 1, 4 and 11). -/
def Obligations.ResetRestoresEveryRegister : Prop :=
  RowDecodes 0xF0000000 0xF0000000 (fun _ => .reset) ∧
  ∀ s : State, ∃ t : State, exec .reset s = .next t ∧
    t = { s with
      ch := t.ch
      g := {
        dayNight := .day, dnInput := .day, shutdown := false, mA := 0, overAmp := false
        underVolt := false, alarmActive := false, alarmCnt := 0 }
      out := { s.out with events := s.out.events ++ [⟨.power, true⟩] } } ∧
    ∀ i : ChanIdx, t.chan i = Channel.fromStore s.params s.cfg .day i false 0

/-- R290: a RESET command has the same effect as power-up with the store and parameters the block holds, up to
the commands still waiting; and `State.reset` is power-up with an empty store list. The port, the parameters,
the empty list and the output held are the model's choice (entries 1, 4, 6, 10 and 11). -/
def Obligations.ResetEqualsPowerUp : Prop :=
  (∀ s : State, s.out = { events := [], response := none } →
    exec .reset s = .next { State.powerUp s.cfg s.params with port := s.port }) ∧
  (∀ (m : Memory) (p : Params), (State.powerUp m p).cfg = m ∧ (State.powerUp m p).params = p ∧
    (State.powerUp m p).out = { events := [⟨.power, true⟩], response := none }) ∧
  State.reset = State.powerUp [] State.reset.params

/-- R291: right after RESET no override is active, every output shows its channel's day target, and the
buzzer is off. -/
def Obligations.OutputsAfterReset : Prop :=
  ∀ s : State, ∃ t : State, exec .reset s = .next t ∧ t.buzzer = false ∧
    t.g.alarmActive = false ∧ t.g.shutdown = false ∧
    ∀ i : ChanIdx, (t.chan i).testEn = false ∧ t.duty i = (t.chan i).dcCur ∧
      t.duty i = (t.chan i).dc .day ∧ t.duty i = s.cfg.read (30 + i.val)

/-! ## Rules over all commands -/

/-- R34: the configuration fields and `msPerStep` are written only by LOAD, SAVEDEF and RESET. -/
def Obligations.ConfigurationWrittenOnlyByLoads : Prop :=
  ∀ (j : Instr) (s t : State) (i : ChanIdx), exec j s = .next t →
    (t.chan i).config ≠ (s.chan i).config → j = .load ∨ j = .savedef ∨ j = .reset

/-- R38: a channel's test override is written only by its own test event, TESTEND and RESET. -/
def Obligations.TestOverrideWriters : Prop :=
  ∀ (j : Instr) (s t : State) (i : ChanIdx), exec j s = .next t →
    (t.chan i).override ≠ (s.chan i).override →
    (∃ on, j = testCommand i on ∨ j = .eventTestend on) ∨ j = .reset

/-- R35, R36: `dcCur` is written only by TICK in TRANSIT, by LOAD (also inside SAVEDEF and RESET) and by
SHUTDOWN off; the chain fields only by TICK, the day/night triggers and LOAD. -/
def Obligations.EngineFieldWriters : Prop :=
  ∀ (j : Instr) (s t : State) (i : ChanIdx), exec j s = .next t →
    ((t.chan i).dcCur ≠ (s.chan i).dcCur →
      (j = .tick ∧ (s.chan i).state = .transit) ∨ j = .eventShutdown false ∨
      j = .load ∨ j = .savedef ∨ j = .reset) ∧
    ((t.chan i).progress ≠ (s.chan i).progress →
      j = .tick ∨ (∃ on, j = .eventNightsw on) ∨ (∃ lvl, j = .dnin lvl) ∨
      j = .load ∨ j = .savedef ∨ j = .reset)

/-- R39, R41: each global register changes only under the commands its row names. -/
def Obligations.GlobalRegisterWriters : Prop :=
  ∀ (j : Instr) (s t : State), exec j s = .next t →
    (t.g.dayNight ≠ s.g.dayNight →
      (∃ on, j = .eventNightsw on) ∨ (∃ lvl, j = .dnin lvl) ∨ j = .reset) ∧
    (t.g.dnInput ≠ s.g.dnInput → (∃ lvl, j = .dnin lvl) ∨ j = .reset) ∧
    (t.g.shutdown ≠ s.g.shutdown → (∃ on, j = .eventShutdown on) ∨ j = .reset) ∧
    ((t.g.mA, t.g.overAmp, t.g.underVolt, t.g.alarmActive) ≠
        (s.g.mA, s.g.overAmp, s.g.underVolt, s.g.alarmActive) →
      (∃ raw, j = .supv raw) ∨ j = .reset) ∧
    (t.g.alarmCnt ≠ s.g.alarmCnt → (∃ raw, j = .supv raw) ∨ j = .tick ∨ j = .reset)

/-- The store changes only under CFGWR and SAVEDEF; in particular TICK, SUPV, LOAD and RESET leave every byte
(R81, R86). -/
def Obligations.StoreWrittenOnlyByCfgwrAndSavedef : Prop :=
  ∀ (j : Instr) (s t : State), exec j s = .next t → t.cfg ≠ s.cfg →
    (∃ off data, j = .cfgwr off data) ∨ j = .savedef

/-- R230: the block emits outbound events in exactly the places the table lists, and each kind has the event
number the table gives it. -/
def Obligations.EventsEmittedExactlyAsListed : Prop :=
  (∀ (p : Params) (on : Bool),
    OutEvent.onBus p ⟨.power, on⟩ = (p.enOutPower, on) ∧ OutEvent.onBus p ⟨.alarm, on⟩ = (p.enOutAlarm, on) ∧
    OutEvent.onBus p ⟨.night, on⟩ = (p.enOutNight, on) ∧ OutEvent.onBus p ⟨.test, on⟩ = (p.enOutTest, on)) ∧
  ∀ (j : Instr) (s t : State), exec j s = .next t →
    t.out.events = s.out.events ++
      (match j with
       | .reset => [⟨.power, true⟩]
       | .supv _ =>
         if t.g.alarmActive = s.g.alarmActive then [] else [⟨.alarm, t.g.alarmActive⟩]
       | .dnin lvl => if lvl = s.g.dnInput then [] else [⟨.night, decide (lvl = .night)⟩]
       | .emittest lvl => [⟨.test, lvl⟩]
       | _ => []) ∧
    (⟨.power, false⟩ ∈ t.out.events → ⟨.power, false⟩ ∈ s.out.events)

/-- CFGRD, CFGADR and STATRD each produce one response; no other command produces one (R101). That CFGADR
responds for a channel number of 10 or more too, which R122 would have a model refuse, is the model's choice
(entry 7). -/
def Obligations.ResponsesOnlyFromReads : Prop :=
  (∀ (j : Instr) (s t : State), exec j s = .next t → t.out.response ≠ s.out.response →
    (∃ off, j = .cfgrd off) ∨ (∃ k c p, j = .cfgadr k c p) ∨ ∃ sel, j = .statrd sel) ∧
  ∀ s : State,
    (∀ off, ∃ t v, exec (.cfgrd off) s = .next t ∧ t.out.response = some v) ∧
    (∀ k c p, ∃ t v, exec (.cfgadr k c p) s = .next t ∧ t.out.response = some v) ∧
    ∀ sel, ∃ t v, exec (.statrd sel) s = .next t ∧ t.out.response = some v

/-! ## The invariant -/

/-- Every step from a legal state ends in a legal state: the store stays in canonical form, every channel's
phase, chain position, step rate and counters stay in range, the supervisor registers agree, and every chain
was started by the phase last broadcast (R33, R37, R307). The step with no command waiting and the CFGADR with
a channel number of 10 or more are among the steps by the model's choice (entries 2 and 7). -/
def Obligations.StepKeepsLegalState : Prop :=
  ∀ s t : State, s.inv → step s = .next t → t.inv

/-- The state after reset is legal, whatever the OPEN parameters are. It rests on the reset values that the
model chose (entries 4, 6 and 9). -/
def Obligations.ResetStateIsLegal : Prop := State.reset.inv

/-- R307: no counter passes its bound in a legal state. -/
def Obligations.NoCounterWrapsInLegalStates : Prop :=
  ∀ s : State, s.inv →
    (∀ i : ChanIdx,
      (s.chan i).msCount.toNat ≤ max 1000 (s.chan i).msPerStep.toNat ∧
      max 1000 (s.chan i).msPerStep.toNat ≤ 63750 ∧
      (s.chan i).secCount.toNat ≤ ((s.chan i).secDelay (s.chan i).phase).toNat ∧
      ((s.chan i).secDelay (s.chan i).phase).toNat ≤ 255) ∧
    s.g.alarmCnt.toNat ≤ s.params.alarmPeriodMs.toNat ∧ s.params.alarmPeriodMs.toNat ≤ 65535
end

