-- ==== Sys2Proof/Laws/Memory.lean ====
section
/-! SUPPORT. The laws of the configuration store: what a read sees after a write, and that every store
operation keeps the canonical form. -/

namespace Sys2Proof.Machine

theorem Memory.read_cons (b : Nat) (v : Byte) (m : Memory) (a : Nat) :
    Memory.read ((b, v) :: m) a = if b = a then v else m.read a := rfl

theorem Memory.read_nil (a : Nat) : Memory.read [] a = Memory.unlisted a := rfl

/-- Reading after an erase. -/
theorem Memory.read_erase (m : Memory) (a b : Nat) :
    (m.erase a).read b = if b = a then Memory.unlisted b else m.read b := by
  induction m with
  | nil => simp [Memory.erase, Memory.read]
  | cons e m ih =>
    obtain ⟨c, v⟩ := e
    simp only [Memory.erase] at ih
    by_cases hc : c = a
    · subst hc
      have hf : Memory.erase ((c, v) :: m) c = m.filter fun e => e.1 != c := by simp [Memory.erase]
      rw [hf, ih, Memory.read_cons]
      by_cases hb : b = c
      · simp [hb]
      · simp [hb, Ne.symm hb]
    · have : (c != a) = true := by simpa using hc
      simp only [Memory.erase, List.filter_cons, this, if_true, Memory.read_cons, ih]
      by_cases hb : b = a
      · subst hb
        simp [hc]
      · simp [hb]

/-- Reading after an insertion at an offset that has no entry. -/
theorem Memory.read_insert (m : Memory) (a : Nat) (v : Byte) (b : Nat)
    (h : ∀ e ∈ m, e.1 ≠ a) : (m.insert a v).read b = if b = a then v else m.read b := by
  induction m with
  | nil =>
    simp only [Memory.insert, Memory.read_cons, Memory.read_nil]
    exact if_congr eq_comm rfl rfl
  | cons e m ih =>
    obtain ⟨c, u⟩ := e
    have hc : c ≠ a := h (c, u) (by simp)
    have ih := ih fun e he => h e (by simp [he])
    simp only [Memory.insert]
    split
    · simp only [Memory.read_cons]
      exact if_congr eq_comm rfl rfl
    · simp only [Memory.read_cons, ih]
      by_cases hb : b = a
      · subst hb
        simp [hc]
      · simp [hb]

theorem Memory.erase_ne (m : Memory) (a : Nat) : ∀ e ∈ m.erase a, e.1 ≠ a := by
  intro e he
  simpa using (List.mem_filter.mp he).2

/-- Everything a write can do to later reads: the written offset reads the new byte, every other offset
reads as before. It holds for every list, canonical or not. -/
theorem Memory.read_write (m : Memory) (a : Nat) (v : Byte) (b : Nat) :
    (m.write a v).read b = if b = a then v else m.read b := by
  unfold Memory.write
  split
  · next h =>
    rw [Memory.read_erase]
    by_cases hb : b = a
    · subst hb
      simp [h]
    · simp [hb]
  · rw [Memory.read_insert _ _ _ _ (Memory.erase_ne m a), Memory.read_erase]
    by_cases hb : b = a <;> simp [hb]

theorem Memory.mem_insert {a : Nat} {v : Byte} {m : Memory} {e : Host.Cell} :
    e ∈ m.insert a v ↔ e = (a, v) ∨ e ∈ m := by
  induction m with
  | nil => simp [Memory.insert]
  | cons x m ih =>
    obtain ⟨b, u⟩ := x
    simp only [Memory.insert]
    split
    · simp
    · simp only [List.mem_cons, ih]
      tauto

theorem Memory.pairwise_insert (m : Memory) (a : Nat) (v : Byte)
    (hs : m.Pairwise fun x y => x.1 < y.1) (h : ∀ e ∈ m, e.1 ≠ a) :
    (m.insert a v).Pairwise fun x y => x.1 < y.1 := by
  induction m with
  | nil => simp [Memory.insert]
  | cons x m ih =>
    obtain ⟨b, u⟩ := x
    have hb : b ≠ a := h (b, u) (by simp)
    have hs' := List.pairwise_cons.mp hs
    simp only [Memory.insert]
    split
    · next hlt =>
      refine List.pairwise_cons.mpr ⟨?_, hs⟩
      intro e he
      rcases List.mem_cons.mp he with rfl | he
      · exact hlt
      · exact Nat.lt_trans hlt (hs'.1 e he)
    · next hge =>
      refine List.pairwise_cons.mpr ⟨?_, ih hs'.2 fun e he => h e (by simp [he])⟩
      intro e he
      rcases Memory.mem_insert.mp he with rfl | he
      · show b < a
        omega
      · exact hs'.1 e he

theorem Memory.wf_iff (m : Memory) : m.wf = true ↔
    (m.Pairwise fun x y => x.1 < y.1) ∧ ∀ e ∈ m, e.1 < 60 ∧ e.2 ≠ Memory.unlisted e.1 := by
  simp [Memory.wf]

@[simp] theorem Memory.wf_nil : Memory.wf [] = true := by decide

theorem Memory.wf_erase {m : Memory} (h : m.wf = true) (a : Nat) : (m.erase a).wf = true := by
  rw [Memory.wf_iff] at *
  exact ⟨h.1.filter _, fun e he => h.2 e (List.mem_filter.mp he).1⟩

/-- A write inside the store keeps the canonical form. -/
theorem Memory.wf_write {m : Memory} (h : m.wf = true) {a : Nat} (ha : a < 60) (v : Byte) :
    (m.write a v).wf = true := by
  unfold Memory.write
  split
  · exact Memory.wf_erase h a
  · next hv =>
    have he := Memory.wf_erase h a
    rw [Memory.wf_iff] at he ⊢
    refine ⟨Memory.pairwise_insert _ _ _ he.1 (Memory.erase_ne m a), ?_⟩
    intro e hm
    rcases Memory.mem_insert.mp hm with rfl | hm
    · exact ⟨ha, hv⟩
    · exact he.2 e hm

/-- CFGWR's write keeps the canonical form, at every offset. -/
theorem wf_writeMapped {m : Memory} (h : m.wf = true) (off data : Byte) :
    (writeMapped m off data).wf = true := by
  unfold writeMapped
  split
  · next ho => exact Memory.wf_write h ho data
  · exact h

/-- What a read sees after CFGWR's write. -/
theorem read_writeMapped (m : Memory) (off data : Byte) (b : Nat) :
    (writeMapped m off data).read b =
      if off.toNat < 60 ∧ b = off.toNat then data else m.read b := by
  unfold writeMapped
  by_cases ho : off.toNat < 60
  · simp [ho, Memory.read_write]
  · simp [ho]

/-- Two canonical stores that read alike are equal. -/
theorem Memory.ext_of_read {m n : Memory} (hm : m.wf = true) (hn : n.wf = true)
    (h : ∀ a, m.read a = n.read a) : m = n := by
  induction m generalizing n with
  | nil =>
    cases n with
    | nil => rfl
    | cons e n =>
      have := (Memory.wf_iff _).mp hn
      have h1 := h e.1
      have h2 := (this.2 e (by simp)).2
      obtain ⟨c, v⟩ := e
      simp only [Memory.read_nil, Memory.read_cons, if_true] at h1
      exact absurd h1.symm h2
  | cons x m ih =>
    have wm := (Memory.wf_iff _).mp hm
    obtain ⟨b, u⟩ := x
    have hb2 := (wm.2 (b, u) (by simp)).2
    have hrest : ∀ (l : Memory) (a : Nat), (∀ e ∈ l, a < e.1) → l.read a = Memory.unlisted a := by
      intro l a
      induction l with
      | nil => intro _; rfl
      | cons e l ihl =>
        intro hl
        obtain ⟨c, w⟩ := e
        have : a < c := hl (c, w) (by simp)
        rw [Memory.read_cons, if_neg (by omega)]
        exact ihl fun e he => hl e (by simp [he])
    cases n with
    | nil =>
      have h1 := h b
      simp only [Memory.read_nil, Memory.read_cons, if_true] at h1
      exact absurd h1 hb2
    | cons y n =>
      obtain ⟨c, w⟩ := y
      have wn := (Memory.wf_iff _).mp hn
      have hc2 := (wn.2 (c, w) (by simp)).2
      have pm := List.pairwise_cons.mp wm.1
      have pn := List.pairwise_cons.mp wn.1
      have hbc : b = c := by
        rcases Nat.lt_trichotomy b c with hlt | heq | hgt
        · have h1 := h b
          rw [Memory.read_cons, if_pos rfl, Memory.read_cons, if_neg (by omega),
            hrest n b fun e he => Nat.lt_trans hlt (pn.1 e he)] at h1
          exact absurd h1 hb2
        · exact heq
        · have h1 := h c
          rw [Memory.read_cons, if_neg (by omega), Memory.read_cons, if_pos rfl,
            hrest m c fun e he => Nat.lt_trans hgt (pm.1 e he)] at h1
          exact absurd h1.symm hc2
      subst hbc
      have huw : u = w := by
        have h1 := h b
        simpa [Memory.read_cons] using h1
      subst huw
      have hmw : Memory.wf m = true := (Memory.wf_iff _).mpr ⟨pm.2, fun e he => wm.2 e (by simp [he])⟩
      have hnw : Memory.wf n = true := (Memory.wf_iff _).mpr ⟨pn.2, fun e he => wn.2 e (by simp [he])⟩
      rw [ih hmw hnw]
      intro a
      by_cases hab : b = a
      · subst hab
        rw [hrest m b pm.1, hrest n b pn.1]
      · have h1 := h a
        simpa [Memory.read_cons, hab] using h1

end Sys2Proof.Machine
end

