-- ==== Sys2Proof/Laws/State.lean ====
section
/-! SUPPORT. One lemma per field per named update of the state, so that no later proof unfolds a record
update, and the extensionality of states through `State.chan`. -/

namespace Sys2Proof.Machine

/-! ## `State.mapCh` -/

@[simp] theorem State.mapCh_chan (f : ChanIdx → Channel → Channel) (s : State) (i : ChanIdx) :
    (s.mapCh f).chan i = f i (s.chan i) := by
  simp [State.chan, State.mapCh]
@[simp] theorem State.mapCh_g (f : ChanIdx → Channel → Channel) (s : State) : (s.mapCh f).g = s.g := rfl
@[simp] theorem State.mapCh_cfg (f : ChanIdx → Channel → Channel) (s : State) : (s.mapCh f).cfg = s.cfg := rfl
@[simp] theorem State.mapCh_params (f : ChanIdx → Channel → Channel) (s : State) : (s.mapCh f).params = s.params := rfl
@[simp] theorem State.mapCh_out (f : ChanIdx → Channel → Channel) (s : State) : (s.mapCh f).out = s.out := rfl
@[simp] theorem State.mapCh_port (f : ChanIdx → Channel → Channel) (s : State) : (s.mapCh f).port = s.port := rfl

/-! ## `State.setG` -/

@[simp] theorem State.setG_chan (g : Globals) (s : State) (i : ChanIdx) :
    (s.setG g).chan i = s.chan i := rfl
@[simp] theorem State.setG_g (g : Globals) (s : State) : (s.setG g).g = g := rfl
@[simp] theorem State.setG_cfg (g : Globals) (s : State) : (s.setG g).cfg = s.cfg := rfl
@[simp] theorem State.setG_params (g : Globals) (s : State) : (s.setG g).params = s.params := rfl
@[simp] theorem State.setG_out (g : Globals) (s : State) : (s.setG g).out = s.out := rfl
@[simp] theorem State.setG_port (g : Globals) (s : State) : (s.setG g).port = s.port := rfl

/-! ## `State.setCfg` -/

@[simp] theorem State.setCfg_chan (m : Memory) (s : State) (i : ChanIdx) :
    (s.setCfg m).chan i = s.chan i := rfl
@[simp] theorem State.setCfg_g (m : Memory) (s : State) : (s.setCfg m).g = s.g := rfl
@[simp] theorem State.setCfg_cfg (m : Memory) (s : State) : (s.setCfg m).cfg = m := rfl
@[simp] theorem State.setCfg_params (m : Memory) (s : State) : (s.setCfg m).params = s.params := rfl
@[simp] theorem State.setCfg_out (m : Memory) (s : State) : (s.setCfg m).out = s.out := rfl
@[simp] theorem State.setCfg_port (m : Memory) (s : State) : (s.setCfg m).port = s.port := rfl

/-! ## `State.emit` -/

@[simp] theorem State.emit_chan (k : OutKind) (on : Bool) (s : State) (i : ChanIdx) :
    (s.emit k on).chan i = s.chan i := rfl
@[simp] theorem State.emit_g (k : OutKind) (on : Bool) (s : State) : (s.emit k on).g = s.g := rfl
@[simp] theorem State.emit_cfg (k : OutKind) (on : Bool) (s : State) : (s.emit k on).cfg = s.cfg := rfl
@[simp] theorem State.emit_params (k : OutKind) (on : Bool) (s : State) : (s.emit k on).params = s.params := rfl
@[simp] theorem State.emit_out (k : OutKind) (on : Bool) (s : State) : (s.emit k on).out = { s.out with events := s.out.events ++ [⟨k, on⟩] } := rfl
@[simp] theorem State.emit_port (k : OutKind) (on : Bool) (s : State) : (s.emit k on).port = s.port := rfl

/-! ## `State.respond` -/

@[simp] theorem State.respond_chan (v : Word) (s : State) (i : ChanIdx) :
    (s.respond v).chan i = s.chan i := rfl
@[simp] theorem State.respond_g (v : Word) (s : State) : (s.respond v).g = s.g := rfl
@[simp] theorem State.respond_cfg (v : Word) (s : State) : (s.respond v).cfg = s.cfg := rfl
@[simp] theorem State.respond_params (v : Word) (s : State) : (s.respond v).params = s.params := rfl
@[simp] theorem State.respond_out (v : Word) (s : State) : (s.respond v).out = { s.out with response := some v } := rfl
@[simp] theorem State.respond_port (v : Word) (s : State) : (s.respond v).port = s.port := rfl

/-! ## `State.accept` -/

@[simp] theorem State.accept_chan (rest : List Word) (s : State) (i : ChanIdx) :
    (s.accept rest).chan i = s.chan i := rfl
@[simp] theorem State.accept_g (rest : List Word) (s : State) : (s.accept rest).g = s.g := rfl
@[simp] theorem State.accept_cfg (rest : List Word) (s : State) : (s.accept rest).cfg = s.cfg := rfl
@[simp] theorem State.accept_params (rest : List Word) (s : State) : (s.accept rest).params = s.params := rfl
@[simp] theorem State.accept_out (rest : List Word) (s : State) : (s.accept rest).out = Output.empty := rfl
@[simp] theorem State.accept_port (rest : List Word) (s : State) : (s.accept rest).port = rest := rfl

/-! ## `State.idle` -/

@[simp] theorem State.idle_chan (s : State) (i : ChanIdx) :
    (s.idle).chan i = s.chan i := rfl
@[simp] theorem State.idle_g (s : State) : (s.idle).g = s.g := rfl
@[simp] theorem State.idle_cfg (s : State) : (s.idle).cfg = s.cfg := rfl
@[simp] theorem State.idle_params (s : State) : (s.idle).params = s.params := rfl
@[simp] theorem State.idle_out (s : State) : (s.idle).out = Output.empty := rfl
@[simp] theorem State.idle_port (s : State) : (s.idle).port = s.port := rfl

/-! ## `State.present` -/

@[simp] theorem State.present_chan (w : Word) (s : State) (i : ChanIdx) :
    (s.present w).chan i = s.chan i := rfl
@[simp] theorem State.present_g (w : Word) (s : State) : (s.present w).g = s.g := rfl
@[simp] theorem State.present_cfg (w : Word) (s : State) : (s.present w).cfg = s.cfg := rfl
@[simp] theorem State.present_params (w : Word) (s : State) : (s.present w).params = s.params := rfl
@[simp] theorem State.present_out (w : Word) (s : State) : (s.present w).out = s.out := rfl
@[simp] theorem State.present_port (w : Word) (s : State) : (s.present w).port = w :: s.port := rfl

/-! ## `State.modifyCh` -/

theorem State.modifyCh_chan (i : ChanIdx) (f : Channel → Channel) (s : State) (j : ChanIdx) :
    (s.modifyCh i f).chan j = if j = i then f (s.chan j) else s.chan j := by
  simp [State.modifyCh]
@[simp] theorem State.modifyCh_g (i : ChanIdx) (f : Channel → Channel) (s : State) :
    (s.modifyCh i f).g = s.g := rfl
@[simp] theorem State.modifyCh_cfg (i : ChanIdx) (f : Channel → Channel) (s : State) :
    (s.modifyCh i f).cfg = s.cfg := rfl
@[simp] theorem State.modifyCh_params (i : ChanIdx) (f : Channel → Channel) (s : State) :
    (s.modifyCh i f).params = s.params := rfl
@[simp] theorem State.modifyCh_out (i : ChanIdx) (f : Channel → Channel) (s : State) :
    (s.modifyCh i f).out = s.out := rfl
@[simp] theorem State.modifyCh_port (i : ChanIdx) (f : Channel → Channel) (s : State) :
    (s.modifyCh i f).port = s.port := rfl

/-! ## Extensionality -/

/-- Two channel files are equal when every record is. -/
theorem ch_ext_of_chan {s t : State} (h : ∀ i, s.chan i = t.chan i) : s.ch = t.ch := by
  apply Vector.ext
  intro i hi
  exact h ⟨i, hi⟩

/-- Two states are equal when all their channel records and all their other fields are. -/
theorem State.ext_of_chan {s t : State} (hch : ∀ i, s.chan i = t.chan i) (hg : s.g = t.g)
    (hcfg : s.cfg = t.cfg) (hp : s.params = t.params) (ho : s.out = t.out) (hq : s.port = t.port) :
    s = t := by
  have hv := ch_ext_of_chan hch
  cases s
  cases t
  simp_all

/-- Replacing every record by itself changes nothing. -/
theorem State.mapCh_id (s : State) : (s.mapCh fun _ c => c) = s :=
  State.ext_of_chan (by simp) rfl rfl rfl rfl rfl

/-- Two bank-wide updates in a row are one. -/
theorem State.mapCh_mapCh (f g : ChanIdx → Channel → Channel) (s : State) :
    (s.mapCh f).mapCh g = s.mapCh fun i c => g i (f i c) :=
  State.ext_of_chan (by simp) rfl rfl rfl rfl rfl

end Sys2Proof.Machine
end

