-- ==== Sys2Proof/Laws/Bank.lean ====
section
/-! SUPPORT. What the bank operations do: the offsets of the address decoder, the step rate, LOAD, SAVEDEF's
writes, broadcasts and overrides. -/

namespace Sys2Proof.Machine

/-! ## The address decoder -/

theorem groupIndex_le (k : ParamKind) (p : Phase) : groupIndex k p ≤ 5 := by
  cases k <;> cases p <;> decide

/-- The decoder's value as a number, for every 4-bit channel number (R120 to R122). -/
theorem cfgAddr_toNat (k : ParamKind) (c : BitVec 4) (p : Phase) :
    (cfgAddr k c p).toNat = 10 * groupIndex k p + c.toNat := by
  have h1 := groupIndex_le k p
  have h2 := c.isLt
  unfold cfgAddr
  rw [BitVec.toNat_ofNat]
  exact Nat.mod_eq_of_lt (by omega)

theorem chanNumber_toNat (i : ChanIdx) : (chanNumber i).toNat = i.val := by
  unfold chanNumber
  rw [BitVec.toNat_ofNat]
  exact Nat.mod_eq_of_lt (by omega)

/-- LOAD and SAVEDEF use offset `10 * group + channel` (R72, R74). -/
theorem readParam_eq (m : Memory) (k : ParamKind) (i : ChanIdx) (p : Phase) :
    readParam m k i p = m.read (10 * groupIndex k p + i.val) := by
  rw [readParam, cfgAddr_toNat, chanNumber_toNat]

theorem read_writeParam (m : Memory) (k : ParamKind) (i : ChanIdx) (p : Phase) (v : Byte) (a : Nat) :
    (writeParam m k i p v).read a = if a = 10 * groupIndex k p + i.val then v else m.read a := by
  rw [writeParam, Memory.read_write, cfgAddr_toNat, chanNumber_toNat]

theorem wf_writeParam {m : Memory} (h : m.wf = true) (k : ParamKind) (i : ChanIdx) (p : Phase) (v : Byte) :
    (writeParam m k i p v).wf = true := by
  have h1 := groupIndex_le k p
  refine Memory.wf_write h ?_ v
  rw [cfgAddr_toNat, chanNumber_toNat]
  omega

/-! ## SAVEDEF's writes -/

theorem read_saveChannelDefaults (d : DefaultNv) (m : Memory) (i : ChanIdx) (a : Nat) :
    (saveChannelDefaults d m i).read a =
      if a = 50 + i.val then d.mode else if a = 40 + i.val then d.dc1
      else if a = 30 + i.val then d.dc0 else if a = 20 + i.val then d.delay1
      else if a = 10 + i.val then d.delay0 else if a = i.val then d.trans else m.read a := by
  simp only [saveChannelDefaults, read_writeParam, groupIndex]
  simp

theorem wf_saveChannelDefaults {m : Memory} (h : m.wf = true) (d : DefaultNv) (i : ChanIdx) :
    (saveChannelDefaults d m i).wf = true := by
  simp only [saveChannelDefaults]
  iterate 6 apply wf_writeParam
  exact h

theorem wf_saveAllDefaults {m : Memory} (h : m.wf = true) (d : DefaultNv) :
    (saveAllDefaults d m).wf = true := by
  unfold saveAllDefaults
  generalize List.finRange 10 = l
  induction l generalizing m with
  | nil => exact h
  | cons i l ih => exact ih (wf_saveChannelDefaults h d i)

/-- The default byte of a group (R181). -/
def defaultOfGroup (d : DefaultNv) : Nat → Byte
  | 0 => d.trans
  | 1 => d.delay0
  | 2 => d.delay1
  | 3 => d.dc0
  | 4 => d.dc1
  | _ => d.mode

/-- After the writes of the channels in `l`, their offsets hold the defaults and the others are as before. -/
theorem read_foldl_saveChannelDefaults (d : DefaultNv) (l : List ChanIdx) (m : Memory) (gi : Nat)
    (hg : gi ≤ 5) (i : ChanIdx) :
    (l.foldl (saveChannelDefaults d) m).read (10 * gi + i.val) =
      if i ∈ l then defaultOfGroup d gi else m.read (10 * gi + i.val) := by
  induction l generalizing m with
  | nil => simp
  | cons j l ih =>
    rw [List.foldl_cons, ih, read_saveChannelDefaults]
    by_cases hl : i ∈ l
    · simp [hl]
    · have hi := i.isLt
      have hj := j.isLt
      by_cases hij : i = j
      · subst hij
        have hgs : gi = 0 ∨ gi = 1 ∨ gi = 2 ∨ gi = 3 ∨ gi = 4 ∨ gi = 5 := by omega
        rcases hgs with rfl | rfl | rfl | rfl | rfl | rfl <;> simp [hl, defaultOfGroup]
      · have hne : i.val ≠ j.val := fun h => hij (Fin.ext h)
        simp only [hl, if_false, List.mem_cons, hij, or_self]
        iterate 6 rw [if_neg (by omega)]

/-- After SAVEDEF's writes every group holds its default in every channel (R175, R181). -/
theorem read_saveAllDefaults (d : DefaultNv) (m : Memory) (gi : Nat) (hg : gi ≤ 5) (i : ChanIdx) :
    (saveAllDefaults d m).read (10 * gi + i.val) = defaultOfGroup d gi := by
  rw [saveAllDefaults, read_foldl_saveChannelDefaults d _ m gi hg i, if_pos (List.mem_finRange i)]

/-! ## The step rate -/

theorem absDiff_le (a b : Byte) : absDiff a b ≤ 255 := by
  have := a.isLt
  have := b.isLt
  unfold absDiff
  omega

/-! ## LOAD, SAVEDEF, broadcast, overrides, RESET -/

@[simp] theorem State.load_chan (s : State) (i : ChanIdx) :
    s.load.chan i = loadChannel s.params s.cfg s.g.dayNight i (s.chan i) := by
  simp [State.load]
@[simp] theorem State.load_g (s : State) : s.load.g = s.g := rfl
@[simp] theorem State.load_cfg (s : State) : s.load.cfg = s.cfg := rfl
@[simp] theorem State.load_params (s : State) : s.load.params = s.params := rfl
@[simp] theorem State.load_out (s : State) : s.load.out = s.out := rfl
@[simp] theorem State.load_port (s : State) : s.load.port = s.port := rfl

@[simp] theorem State.saveDefaults_chan (s : State) (i : ChanIdx) :
    s.saveDefaults.chan i =
      loadChannel s.params (saveAllDefaults s.params.defaultNv s.cfg) s.g.dayNight i (s.chan i) := by
  simp [State.saveDefaults]
@[simp] theorem State.saveDefaults_g (s : State) : s.saveDefaults.g = s.g := rfl
@[simp] theorem State.saveDefaults_cfg (s : State) :
    s.saveDefaults.cfg = saveAllDefaults s.params.defaultNv s.cfg := rfl
@[simp] theorem State.saveDefaults_params (s : State) : s.saveDefaults.params = s.params := rfl
@[simp] theorem State.saveDefaults_out (s : State) : s.saveDefaults.out = s.out := rfl
@[simp] theorem State.saveDefaults_port (s : State) : s.saveDefaults.port = s.port := rfl

@[simp] theorem State.broadcast_chan (t : Phase) (s : State) (i : ChanIdx) :
    (s.broadcast t).chan i = (s.chan i).trigger t := by
  simp [State.broadcast]
@[simp] theorem State.broadcast_g (t : Phase) (s : State) :
    (s.broadcast t).g = { s.g with dayNight := t } := rfl
@[simp] theorem State.broadcast_cfg (t : Phase) (s : State) : (s.broadcast t).cfg = s.cfg := rfl
@[simp] theorem State.broadcast_params (t : Phase) (s : State) : (s.broadcast t).params = s.params := rfl
@[simp] theorem State.broadcast_out (t : Phase) (s : State) : (s.broadcast t).out = s.out := rfl
@[simp] theorem State.broadcast_port (t : Phase) (s : State) : (s.broadcast t).port = s.port := rfl

theorem State.testCh_chan (i : ChanIdx) (on : Bool) (s : State) (j : ChanIdx) :
    (s.testCh i on).chan j = if j = i then (s.chan j).forceTest on else s.chan j :=
  State.modifyCh_chan i _ s j

@[simp] theorem State.testEnd_chan (s : State) (i : ChanIdx) :
    s.testEnd.chan i = (s.chan i).releaseTest := by
  simp [State.testEnd]

/-- Everything a shutdown event can do. -/
theorem State.shutdownEv_on (s : State) :
    s.shutdownEv true = s.setG { s.g with shutdown := true } := rfl

theorem State.shutdownEv_off (s : State) :
    s.shutdownEv false =
      (s.setG { s.g with shutdown := false }).mapCh fun _ c => c.restoreTarget := rfl

/-- Everything a presented level can do. -/
theorem State.presentLevel_cases (lvl : Phase) (s : State) :
    (lvl = s.g.dnInput ∧ s.presentLevel lvl = s) ∨
    (lvl ≠ s.g.dnInput ∧ s.presentLevel lvl =
      ((s.setG { s.g with dnInput := lvl }).broadcast lvl).emit .night (decide (lvl = .night))) := by
  unfold State.presentLevel
  by_cases h : lvl = s.g.dnInput <;> simp [h]

@[simp] theorem State.resetAll_g (s : State) : s.resetAll.g = Globals.afterReset := rfl
@[simp] theorem State.resetAll_cfg (s : State) : s.resetAll.cfg = s.cfg := rfl
@[simp] theorem State.resetAll_params (s : State) : s.resetAll.params = s.params := rfl
@[simp] theorem State.resetAll_port (s : State) : s.resetAll.port = s.port := rfl
@[simp] theorem State.resetAll_out (s : State) :
    s.resetAll.out = { s.out with events := s.out.events ++ [⟨.power, true⟩] } := rfl
@[simp] theorem State.resetAll_chan (s : State) (i : ChanIdx) :
    s.resetAll.chan i = loadChannel s.params s.cfg .day i (s.chan i).releaseTest := by
  simp [State.resetAll, Globals.afterReset]

@[simp] theorem State.powerUp_g (m : Memory) (p : Params) : (State.powerUp m p).g = Globals.afterReset := rfl
@[simp] theorem State.powerUp_cfg (m : Memory) (p : Params) : (State.powerUp m p).cfg = m := rfl
@[simp] theorem State.powerUp_params (m : Memory) (p : Params) : (State.powerUp m p).params = p := rfl
@[simp] theorem State.powerUp_port (m : Memory) (p : Params) : (State.powerUp m p).port = [] := rfl
@[simp] theorem State.powerUp_out (m : Memory) (p : Params) :
    (State.powerUp m p).out = { events := [⟨.power, true⟩], response := none } := rfl
@[simp] theorem State.powerUp_chan (m : Memory) (p : Params) (i : ChanIdx) :
    (State.powerUp m p).chan i = loadChannel p m .day i Channel.afterReset := by
  rw [State.powerUp, State.resetAll_chan]
  simp [State.chan, Channel.releaseTest, Channel.afterReset]

/-- LOAD reads a channel record only for its test override. -/
theorem loadChannel_releaseTest (p : Params) (m : Memory) (t : Phase) (i : ChanIdx) (c d : Channel) :
    loadChannel p m t i c.releaseTest = loadChannel p m t i d.releaseTest := rfl

end Sys2Proof.Machine
end

