-- ==== Sys2Proof/Laws/Decode.lean ====
section
/-! SUPPORT. The small lemmas of the decoder and the encoder: a placed field and what is read back from it,
the codes, the fields of every format, and the decoder at each operation code. -/

namespace Sys2Proof

/-! ## Placed fields -/

theorem getLsbD_place {n : Nat} (lo : Nat) (v : BitVec n) (i : Nat) :
    (place lo v).getLsbD i = (decide (i < 32) && decide (lo ≤ i) && v.getLsbD (i - lo)) := by
  simp only [place, BitVec.getLsbD_shiftLeft, BitVec.getLsbD_setWidth]
  by_cases h1 : i < 32 <;> by_cases h2 : lo ≤ i
  · have h3 : i - lo < 32 := by omega
    simp [h1, h2, h3]
  all_goals simp [h1, h2]

/-- A bit of a placed field, in the form simp rewrites bits to. -/
theorem getElem_place {n : Nat} (lo : Nat) (v : BitVec n) (i : Nat) (hi : i < 32) :
    (place lo v)[i] = (decide (lo ≤ i) && v.getLsbD (i - lo)) := by
  rw [← BitVec.getLsbD_eq_getElem, getLsbD_place]
  simp [hi]

/-- Reading a field back from where it was placed. -/
theorem extract_place_same {n : Nat} (lo : Nat) (v : BitVec n) (h : lo + n ≤ 32) :
    (place lo v).extractLsb' lo n = v := by
  ext i hi
  rw [BitVec.getElem_extractLsb', getLsbD_place, BitVec.getLsbD_eq_getElem (by omega)]
  have h1 : lo + i < 32 := by omega
  have h2 : lo + i - lo = i := by omega
  simp [h1, h2]

/-- Reading other bits than those a field was placed at gives 0. -/
theorem extract_place_apart {n : Nat} (lo : Nat) (v : BitVec n) (lo' n' : Nat)
    (h : lo + n ≤ lo' ∨ lo' + n' ≤ lo) : (place lo v).extractLsb' lo' n' = 0 := by
  ext i hi
  rw [BitVec.getElem_extractLsb', getLsbD_place]
  rcases h with h | h
  · have : n ≤ lo' + i - lo := by omega
    simp [BitVec.getLsbD_of_ge v _ this]
  · have : ¬ lo ≤ lo' + i := by omega
    simp [this]

/-! ## Codes -/

@[simp] theorem Phase.ofBool_true : Phase.ofBool true = .night := rfl
@[simp] theorem Phase.ofBool_false : Phase.ofBool false = .day := rfl

@[simp] theorem Phase.ofBool_bit (p : Phase) : Phase.ofBool p.bit[0] = p := by
  cases p <;> rfl

@[simp] theorem ParamKind.ofCode_code (k : ParamKind) : ParamKind.ofCode k.code = k := by
  cases k <;> rfl

@[simp] theorem ParamKind.code_ofCode (k : BitVec 2) : (ParamKind.ofCode k).code = k := by
  revert k
  decide

@[simp] theorem Phase.bit_ofBool (b : Bool) : (Phase.ofBool b).bit = BitVec.ofBool b := by
  cases b <;> rfl

/-! ## Fields of the formats -/

@[simp] theorem opField_formatN (op : BitVec 4) : opField (formatN op) = op :=
  extract_place_same 28 op (by decide)

@[simp] theorem opField_formatE (on : Bool) (en : Half) : opField (formatE on en) = 0x2 := by
  simp [opField, formatE, BitVec.extractLsb'_or, extract_place_same, extract_place_apart]

@[simp] theorem enField_formatE (on : Bool) (en : Half) : enField (formatE on en) = en := by
  simp [enField, formatE, BitVec.extractLsb'_or, extract_place_same, extract_place_apart]

@[simp] theorem onField_formatE (on : Bool) (en : Half) : onField (formatE on en) = on := by
  simp [onField, formatE, getElem_place]

@[simp] theorem opField_formatL (op : BitVec 4) (lvl : BitVec 1) : opField (formatL op lvl) = op := by
  simp [opField, formatL, BitVec.extractLsb'_or, extract_place_same, extract_place_apart]

@[simp] theorem lvlField_formatL (op : BitVec 4) (lvl : BitVec 1) :
    lvlField (formatL op lvl) = lvl[0] := by
  simp [lvlField, formatL, getElem_place]

@[simp] theorem opField_formatA (raw : Half) : opField (formatA raw) = 0x4 := by
  simp [opField, formatA, BitVec.extractLsb'_or, extract_place_same, extract_place_apart]

@[simp] theorem rawField_formatA (raw : Half) : rawField (formatA raw) = raw := by
  simp [rawField, formatA, BitVec.extractLsb'_or, extract_place_same, extract_place_apart]

@[simp] theorem opField_formatR (off : Byte) : opField (formatR off) = 0x5 := by
  simp [opField, formatR, BitVec.extractLsb'_or, extract_place_same, extract_place_apart]

@[simp] theorem offField_formatR (off : Byte) : offField (formatR off) = off := by
  simp [offField, formatR, BitVec.extractLsb'_or, extract_place_same, extract_place_apart]

@[simp] theorem opField_formatW (off data : Byte) : opField (formatW off data) = 0x6 := by
  simp [opField, formatW, BitVec.extractLsb'_or, extract_place_same, extract_place_apart]

@[simp] theorem offField_formatW (off data : Byte) : offField (formatW off data) = off := by
  simp [offField, formatW, BitVec.extractLsb'_or, extract_place_same, extract_place_apart]

@[simp] theorem dataField_formatW (off data : Byte) : dataField (formatW off data) = data := by
  simp [dataField, formatW, BitVec.extractLsb'_or, extract_place_same, extract_place_apart]

@[simp] theorem opField_formatM (k : BitVec 2) (c : BitVec 4) (p : BitVec 1) :
    opField (formatM k c p) = 0x7 := by
  simp [opField, formatM, BitVec.extractLsb'_or, extract_place_same, extract_place_apart]

@[simp] theorem kindField_formatM (k : BitVec 2) (c : BitVec 4) (p : BitVec 1) :
    kindField (formatM k c p) = k := by
  simp [kindField, formatM, BitVec.extractLsb'_or, extract_place_same, extract_place_apart]

@[simp] theorem chnField_formatM (k : BitVec 2) (c : BitVec 4) (p : BitVec 1) :
    chnField (formatM k c p) = c := by
  simp [chnField, formatM, BitVec.extractLsb'_or, extract_place_same, extract_place_apart]

@[simp] theorem phField_formatM (k : BitVec 2) (c : BitVec 4) (p : BitVec 1) :
    phField (formatM k c p) = p[0] := by
  simp [phField, formatM, getElem_place]

@[simp] theorem opField_formatS (sel : Byte) : opField (formatS sel) = 0xB := by
  simp [opField, formatS, BitVec.extractLsb'_or, extract_place_same, extract_place_apart]

@[simp] theorem selField_formatS (sel : Byte) : selField (formatS sel) = sel := by
  simp [selField, formatS, BitVec.extractLsb'_or, extract_place_same, extract_place_apart]

/-! ## Fields through a mask -/

/-- The operation field of a word whose value under the operation mask is known. -/
theorem opField_of_mask {w m : Word} (h : w &&& 0xF0000000 = m) : opField w = opField m := by
  subst h
  ext i hi
  have : i = 0 ∨ i = 1 ∨ i = 2 ∨ i = 3 := by omega
  rcases this with rfl | rfl | rfl | rfl <;> simp [opField, BitVec.getElem_and]

/-- The operation field of an EVENT word whose value under its row's mask is known. -/
theorem opField_of_eventMask {w m : Word} (h : w &&& 0xF000FFFF = m) : opField w = opField m := by
  subst h
  ext i hi
  have : i = 0 ∨ i = 1 ∨ i = 2 ∨ i = 3 := by omega
  rcases this with rfl | rfl | rfl | rfl <;> simp [opField, BitVec.getElem_and]

/-- The event number of an EVENT word whose value under its row's mask is known. -/
theorem enField_of_eventMask {w m : Word} (h : w &&& 0xF000FFFF = m) : enField w = enField m := by
  subst h
  ext i hi
  interval_cases i <;> simp [enField, BitVec.getElem_and]

/-! ## The decoder -/

/-- The decoder reads a word through its operation field and the fields of that operation's format alone. -/
theorem decodeWord_congr {w w' : Word} (hop : opField w = opField w') (hon : onField w = onField w')
    (hen : enField w = enField w') (hoff : offField w = offField w') (hk : kindField w = kindField w')
    (hc : chnField w = chnField w') : decodeWord w = decodeWord w' := by
  have hlvl : lvlField w = lvlField w' := by
    have := congrArg (fun v : Half => v.getLsbD 0) hen
    simpa [enField, lvlField, BitVec.getLsbD_extractLsb'] using this
  have hb : dataField w = dataField w' := by
    ext i hi
    have := congrArg (fun v : Half => v.getLsbD i) hen
    have h16 : i < 16 := by omega
    simpa [enField, dataField, BitVec.getLsbD_extractLsb', BitVec.getElem_extractLsb', h16] using this
  have hph : phField w = phField w' := hlvl
  have hsel : selField w = selField w' := hb
  have hraw : rawField w = rawField w' := hen
  unfold decodeWord
  rw [hop, hon, hen, hoff, hk, hc, hlvl, hb, hph, hsel, hraw]

/-- An event number of 13 or more selects EVENT.IGNORED (R103). -/
theorem decodeEvent_ignored (on : Bool) {en : Half} (h : 13 ≤ en.toNat) :
    decodeEvent on en = .eventIgnored on en := by
  unfold decodeEvent
  split <;> first | rfl | omega

/-- Every event number selects a well-formed instruction (R103, R221). -/
theorem decodeEvent_wf (on : Bool) (en : Half) : (decodeEvent on en).wf = true := by
  by_cases h : 13 ≤ en.toNat
  · simp [decodeEvent_ignored on h, Instr.wf, h]
  · unfold decodeEvent
    split <;> first | rfl | skip
    next h0 h1 h2 h3 h4 h5 h6 h7 h8 h9 h10 h11 h12 =>
      exfalso
      generalize en.toNat = n at *
      interval_cases n <;> simp_all

end Sys2Proof
end

