-- ==== Sys2Proof/Laws/Engine.lean ====
section
/-! SUPPORT. What the operations of the channel engine can do: the chain table, the end of a segment, one
tick of a channel, TICK as a whole. -/

namespace Sys2Proof.Machine

/-! ## Phases and chains -/

@[simp] theorem Phase.xor_false (t : Phase) : t.xor false = t := rfl
@[simp] theorem Phase.xor_true (t : Phase) : t.xor true = t.other := rfl
@[simp] theorem Phase.other_other (t : Phase) : t.other.other = t := by cases t <;> rfl

/-- Every chain has one or two segments (R140). -/
theorem chainLen_one_or_two (m : Mode) (t : Phase) : chainLen m t = 1 ∨ chainLen m t = 2 := by
  cases m <;> cases t <;> simp [chainLen]

theorem chainLen_pos (m : Mode) (t : Phase) : 0 < chainLen m t := by
  rcases chainLen_one_or_two m t with h | h <;> omega

/-- A repeating chain has two segments (R140). -/
theorem chainLen_of_repeats {m : Mode} {t : Phase} (h : chainRepeats m t = true) : chainLen m t = 2 := by
  revert h
  cases m <;> cases t <;> simp [chainLen, chainRepeats]

/-! ## The end of a segment (R137) -/

/-- Everything `segmentDone` can do: go to the second segment, start a repeating chain again, or rest. -/
theorem Channel.segmentDone_cases (c : Channel) :
    (c.seqPos = false ∧ chainLen c.mode c.trig = 2 ∧ c.segmentDone =
      { c with msCount := 0, secCount := 0, seqPos := true, phase := c.trig.other, state := .delay }) ∨
    (¬ (c.seqPos = false ∧ chainLen c.mode c.trig = 2) ∧ chainRepeats c.mode c.trig = true ∧
      c.segmentDone =
        { c with msCount := 0, secCount := 0, seqPos := false, phase := c.trig, state := .delay }) ∨
    (¬ (c.seqPos = false ∧ chainLen c.mode c.trig = 2) ∧ chainRepeats c.mode c.trig = false ∧
      c.segmentDone = { c with msCount := 0, secCount := 0, state := .steady }) := by
  have hlen := chainLen_one_or_two c.mode c.trig
  unfold Channel.segmentDone
  cases hs : c.seqPos <;> cases hr : chainRepeats c.mode c.trig <;>
    rcases hlen with hl | hl <;> simp [hl]

/-- The end of a segment writes the chain position and the counters only. -/
theorem Channel.segmentDone_frame (c : Channel) :
    c.segmentDone.config = c.config ∧ c.segmentDone.override = c.override ∧
    c.segmentDone.trig = c.trig ∧ c.segmentDone.dcCur = c.dcCur := by
  rcases c.segmentDone_cases with ⟨_, _, h⟩ | ⟨_, _, h⟩ | ⟨_, _, h⟩ <;> rw [h] <;>
    exact ⟨rfl, rfl, rfl, rfl⟩

/-! ## The ramp (R133, R136) -/

/-- Everything `ramp` can do. -/
theorem Channel.ramp_cases (c : Channel) :
    (c.secTrans = 0 ∧ c.ramp = { c with dcCur := c.target }) ∨
    (c.secTrans ≠ 0 ∧ c.msCount + 1 = c.msPerStep ∧
      c.ramp = { c with msCount := 0, dcCur := stepToward c.dcCur c.target }) ∨
    (c.secTrans ≠ 0 ∧ c.msCount + 1 ≠ c.msPerStep ∧ c.ramp = { c with msCount := c.msCount + 1 }) := by
  unfold Channel.ramp
  by_cases h1 : c.secTrans = 0
  · exact Or.inl ⟨h1, if_pos h1⟩
  · rw [if_neg h1]
    by_cases h2 : c.msCount + 1 = c.msPerStep
    · exact Or.inr (Or.inl ⟨h1, h2, if_pos h2⟩)
    · exact Or.inr (Or.inr ⟨h1, h2, if_neg h2⟩)

/-- The ramp writes `dcCur` and `msCount` only. -/
theorem Channel.ramp_frame (c : Channel) :
    c.ramp.config = c.config ∧ c.ramp.override = c.override ∧ c.ramp.trig = c.trig ∧
    c.ramp.seqPos = c.seqPos ∧ c.ramp.phase = c.phase ∧ c.ramp.state = c.state ∧
    c.ramp.secCount = c.secCount ∧ c.ramp.target = c.target := by
  rcases c.ramp_cases with ⟨_, h⟩ | ⟨_, _, h⟩ | ⟨_, _, h⟩ <;> rw [h] <;>
    exact ⟨rfl, rfl, rfl, rfl, rfl, rfl, rfl, rfl⟩

/-- One step of a ramp, on numbers. -/
theorem stepToward_toNat (v t : Byte) :
    (stepToward v t).toNat =
      if v.toNat < t.toNat then v.toNat + 1 else if t.toNat < v.toNat then v.toNat - 1 else v.toNat := by
  have hv := v.isLt
  have ht := t.isLt
  unfold stepToward
  split
  · rw [BitVec.toNat_add]
    show (v.toNat + 1) % 256 = _
    omega
  · split
    · rw [BitVec.toNat_sub]
      show (256 - 1 + v.toNat) % 256 = _
      omega
    · rfl

/-! ## One tick of a channel -/

/-- The delay counter writes the two counters only. -/
theorem Channel.countMs_cases (c : Channel) :
    (c.msCount + 1 = 1000 ∧ c.countMs = { c with msCount := 0, secCount := c.secCount + 1 }) ∨
    (c.msCount + 1 ≠ 1000 ∧ c.countMs = { c with msCount := c.msCount + 1 }) := by
  unfold Channel.countMs
  by_cases h : c.msCount + 1 = Config.msPerSec
  · exact Or.inl ⟨h, by rw [if_pos h]⟩
  · exact Or.inr ⟨h, by rw [if_neg h]⟩

theorem Channel.tick_steady {c : Channel} (h : c.state = .steady) : c.tick = c := by
  simp [Channel.tick, h]

theorem Channel.tick_delay {c : Channel} (h : c.state = .delay) : c.tick = c.delayTick := by
  simp [Channel.tick, h]

theorem Channel.tick_transit {c : Channel} (h : c.state = .transit) : c.tick = c.transitTick := by
  simp [Channel.tick, h]

/-- A tick never writes the configuration, the override or the trigger phase of a channel. -/
theorem Channel.tick_frame (c : Channel) :
    c.tick.config = c.config ∧ c.tick.override = c.override ∧ c.tick.trig = c.trig := by
  cases hs : c.state
  · rw [Channel.tick_steady hs]
    exact ⟨rfl, rfl, rfl⟩
  · rw [Channel.tick_transit hs]
    unfold Channel.transitTick
    have hr := c.ramp_frame
    have hd := c.ramp.segmentDone_frame
    split
    · exact ⟨hd.1.trans hr.1, hd.2.1.trans hr.2.1, hd.2.2.1.trans hr.2.2.1⟩
    · exact ⟨hr.1, hr.2.1, hr.2.2.1⟩
  · rw [Channel.tick_delay hs]
    unfold Channel.delayTick
    split <;> rcases c.countMs_cases with ⟨_, h⟩ | ⟨_, h⟩ <;> rw [h] <;> exact ⟨rfl, rfl, rfl⟩

/-! ## TICK -/

@[simp] theorem State.tickAll_chan (s : State) (i : ChanIdx) :
    s.tickAll.chan i = if s.frozen then s.chan i else (s.chan i).tick := by
  simp [State.tickAll]

@[simp] theorem State.tickAll_g (s : State) : s.tickAll.g = s.g.tickAlarm := rfl
@[simp] theorem State.tickAll_cfg (s : State) : s.tickAll.cfg = s.cfg := rfl
@[simp] theorem State.tickAll_params (s : State) : s.tickAll.params = s.params := rfl
@[simp] theorem State.tickAll_out (s : State) : s.tickAll.out = s.out := rfl
@[simp] theorem State.tickAll_port (s : State) : s.tickAll.port = s.port := rfl

/-- The alarm timer's tick, on numbers: down by one, not below 0 (R131). -/
theorem Globals.tickAlarm_eq (g : Globals) :
    g.tickAlarm = { g with alarmCnt := if 0 < g.alarmCnt.toNat then g.alarmCnt - 1 else g.alarmCnt } := by
  unfold Globals.tickAlarm
  split <;> rfl

theorem Globals.tickAlarm_toNat (g : Globals) : g.tickAlarm.alarmCnt.toNat = g.alarmCnt.toNat - 1 := by
  have := g.alarmCnt.isLt
  unfold Globals.tickAlarm
  split
  · show (g.alarmCnt - 1).toNat = _
    rw [BitVec.toNat_sub]
    show (65536 - 1 + g.alarmCnt.toNat) % 65536 = _
    omega
  · omega

/-- A TICK leaves the frozen flag as it is, so a run of TICKs is frozen throughout or not at all. -/
@[simp] theorem State.tickAll_frozen (s : State) : s.tickAll.frozen = s.frozen := by
  simp only [State.frozen, State.tickAll_params, State.tickAll_g, Globals.tickAlarm_eq]

end Sys2Proof.Machine
end

