-- ==== Sys2Proof/Laws/Supervisor.lean ====
section
/-! SUPPORT. What the power-fault operations do. -/

namespace Sys2Proof.Machine

/-- The estimate as a number: zero at and below ADC_ZERO, saturating above (R191). -/
theorem sample_toNat (p : Params) (raw : Half) :
    (sample p raw).toNat =
      if p.adcZero.toNat < raw.toNat then
        min 65535 (((raw.toNat - p.adcZero.toNat) * p.maNum) / p.maDen)
      else 0 := by
  unfold sample
  split
  · rw [BitVec.toNat_ofNat]
    apply Nat.mod_eq_of_lt
    show min 65535 _ < 65536
    omega
  · rfl

/-- The sensed registers see a fault exactly for a fault sample. -/
theorem Globals.faulty_sensed (g : Globals) (p : Params) (raw : Half) :
    (g.sensed p raw).faulty = true ↔ faultSample p raw := by
  simp [Globals.faulty, Globals.sensed, overCurrent, underVoltage, faultSample]

@[simp] theorem State.enterFault_chan (s : State) (i : ChanIdx) : s.enterFault.chan i = s.chan i := by
  unfold State.enterFault
  cases s.g.alarmActive <;> rfl
@[simp] theorem State.enterFault_g (s : State) :
    s.enterFault.g =
      { s.g with
        alarmActive := true
        alarmCnt := if s.g.alarmCnt = 0 then s.params.alarmPeriodMs else s.g.alarmCnt } := rfl
@[simp] theorem State.enterFault_cfg (s : State) : s.enterFault.cfg = s.cfg := by
  unfold State.enterFault
  cases s.g.alarmActive <;> rfl
@[simp] theorem State.enterFault_params (s : State) : s.enterFault.params = s.params := by
  unfold State.enterFault
  cases s.g.alarmActive <;> rfl
@[simp] theorem State.enterFault_port (s : State) : s.enterFault.port = s.port := by
  unfold State.enterFault
  cases s.g.alarmActive <;> rfl
theorem State.enterFault_out (s : State) :
    s.enterFault.out =
      if s.g.alarmActive then s.out
      else { s.out with events := s.out.events ++ [⟨.alarm, true⟩] } := by
  unfold State.enterFault
  cases s.g.alarmActive <;> rfl

@[simp] theorem State.exitFault_chan (s : State) (i : ChanIdx) : s.exitFault.chan i = s.chan i := by
  unfold State.exitFault
  cases s.g.alarmActive <;> rfl
@[simp] theorem State.exitFault_g (s : State) :
    s.exitFault.g = { s.g with alarmActive := false } := rfl
@[simp] theorem State.exitFault_cfg (s : State) : s.exitFault.cfg = s.cfg := by
  unfold State.exitFault
  cases s.g.alarmActive <;> rfl
@[simp] theorem State.exitFault_params (s : State) : s.exitFault.params = s.params := by
  unfold State.exitFault
  cases s.g.alarmActive <;> rfl
@[simp] theorem State.exitFault_port (s : State) : s.exitFault.port = s.port := by
  unfold State.exitFault
  cases s.g.alarmActive <;> rfl
theorem State.exitFault_out (s : State) :
    s.exitFault.out =
      if s.g.alarmActive then { s.out with events := s.out.events ++ [⟨.alarm, false⟩] }
      else s.out := by
  unfold State.exitFault
  cases s.g.alarmActive <;> rfl

/-- Everything a supervisory pass can do: fault entry on a fault sample, fault exit on any other (R192). -/
theorem State.supervise_cases (raw : Half) (s : State) :
    (faultSample s.params raw ∧
      s.supervise raw = (s.setG (s.g.sensed s.params raw)).enterFault) ∨
    (¬ faultSample s.params raw ∧
      s.supervise raw = (s.setG (s.g.sensed s.params raw)).exitFault) := by
  have h := Globals.faulty_sensed s.g s.params raw
  unfold State.supervise
  by_cases hf : faultSample s.params raw
  · exact Or.inl ⟨hf, by simp [h.mpr hf]⟩
  · have : (s.g.sensed s.params raw).faulty = false := by
      rw [← Bool.not_eq_true]
      exact fun hc => hf (h.mp hc)
    exact Or.inr ⟨hf, by simp [this]⟩

end Sys2Proof.Machine
end

