-- ==== Sys2Proof/Laws/Exec.lean ====
section
/-! SUPPORT. What one command does, said once for all commands: the channel record, the global registers,
the store and the output it leaves. Proofs over all commands case on these and never unfold a meaning. -/

namespace Sys2Proof.Machine

/-- The record a command leaves in channel `i`. -/
def laneAfter (j : Instr) (s : State) (i : ChanIdx) : Channel :=
  let c := s.chan i
  match j with
  | .tick => if s.frozen then c else c.tick
  | .eventNightsw on => c.trigger (Phase.ofBool on)
  | .eventTest1 on => if i = 0 then c.forceTest on else c
  | .eventTest2 on => if i = 1 then c.forceTest on else c
  | .eventTest3 on => if i = 2 then c.forceTest on else c
  | .eventTest4 on => if i = 3 then c.forceTest on else c
  | .eventTest5 on => if i = 4 then c.forceTest on else c
  | .eventTest6 on => if i = 5 then c.forceTest on else c
  | .eventTest7 on => if i = 6 then c.forceTest on else c
  | .eventTest8 on => if i = 7 then c.forceTest on else c
  | .eventTest9 on => if i = 8 then c.forceTest on else c
  | .eventTest10 on => if i = 9 then c.forceTest on else c
  | .eventTestend _ => c.releaseTest
  | .eventShutdown on => if on then c else c.restoreTarget
  | .dnin lvl => if lvl = s.g.dnInput then c else c.trigger lvl
  | .load => loadChannel s.params s.cfg s.g.dayNight i c
  | .savedef => loadChannel s.params (saveAllDefaults s.params.defaultNv s.cfg) s.g.dayNight i c
  | .reset => loadChannel s.params s.cfg .day i c.releaseTest
  | .nop | .eventIgnored _ _ | .supv _ | .cfgrd _ | .cfgwr _ _ | .cfgadr _ _ _ => c
  | .emittest _ | .statrd _ | .reservedC | .reservedD | .reservedE => c

/-- The global registers a command leaves. -/
def globalsAfter (j : Instr) (s : State) : Globals :=
  match j with
  | .tick => s.g.tickAlarm
  | .eventNightsw on => { s.g with dayNight := Phase.ofBool on }
  | .eventShutdown on => { s.g with shutdown := on }
  | .dnin lvl => if lvl = s.g.dnInput then s.g else { s.g with dnInput := lvl, dayNight := lvl }
  | .supv raw => (s.supervise raw).g
  | .reset => Globals.afterReset
  | .nop | .eventTest1 _ | .eventTest2 _ | .eventTest3 _ | .eventTest4 _ | .eventTest5 _ => s.g
  | .eventTest6 _ | .eventTest7 _ | .eventTest8 _ | .eventTest9 _ | .eventTest10 _ => s.g
  | .eventTestend _ | .eventIgnored _ _ | .cfgrd _ | .cfgwr _ _ | .cfgadr _ _ _ | .load => s.g
  | .savedef | .emittest _ | .statrd _ | .reservedC | .reservedD | .reservedE => s.g

/-- The store a command leaves. -/
def storeAfter (j : Instr) (s : State) : Memory :=
  match j with
  | .cfgwr off data => writeMapped s.cfg off data
  | .savedef => saveAllDefaults s.params.defaultNv s.cfg
  | .nop | .tick | .eventNightsw _ | .eventTest1 _ | .eventTest2 _ | .eventTest3 _ => s.cfg
  | .eventTest4 _ | .eventTest5 _ | .eventTest6 _ | .eventTest7 _ | .eventTest8 _ => s.cfg
  | .eventTest9 _ | .eventTest10 _ | .eventTestend _ | .eventShutdown _ | .eventIgnored _ _ => s.cfg
  | .dnin _ | .supv _ | .cfgrd _ | .cfgadr _ _ _ | .load | .emittest _ | .statrd _ => s.cfg
  | .reservedC | .reservedD | .reservedE | .reset => s.cfg

/-- The output a command leaves. -/
def outputAfter (j : Instr) (s : State) : Output :=
  match j with
  | .dnin lvl =>
    if lvl = s.g.dnInput then s.out
    else { s.out with events := s.out.events ++ [⟨.night, decide (lvl = .night)⟩] }
  | .supv raw => (s.supervise raw).out
  | .cfgrd off => { s.out with response := some (zext32 (readMapped s.cfg off)) }
  | .cfgadr kind chn ph => { s.out with response := some (zext32 (cfgAddr kind chn ph)) }
  | .emittest lvl => { s.out with events := s.out.events ++ [⟨.test, lvl⟩] }
  | .statrd sel => { s.out with response := some (s.statusWord sel) }
  | .reset => { s.out with events := s.out.events ++ [⟨.power, true⟩] }
  | .nop | .tick | .eventNightsw _ | .eventTest1 _ | .eventTest2 _ | .eventTest3 _ => s.out
  | .eventTest4 _ | .eventTest5 _ | .eventTest6 _ | .eventTest7 _ | .eventTest8 _ => s.out
  | .eventTest9 _ | .eventTest10 _ | .eventTestend _ | .eventShutdown _ | .eventIgnored _ _ => s.out
  | .cfgwr _ _ | .load | .savedef | .reservedC | .reservedD | .reservedE => s.out

/-- Everything a command can do: it answers a next state whose fields are the ones above, and it leaves the
parameters and the waiting words alone. -/
theorem exec_next {j : Instr} {s t : State} (h : exec j s = .next t) :
    (∀ i, t.chan i = laneAfter j s i) ∧ t.g = globalsAfter j s ∧ t.cfg = storeAfter j s ∧
    t.out = outputAfter j s ∧ t.params = s.params ∧ t.port = s.port := by
  cases j with
  | dnin lvl =>
    injection h with h
    subst h
    rcases State.presentLevel_cases lvl s with ⟨e, h⟩ | ⟨e, h⟩ <;> rw [h] <;>
      simp [laneAfter, globalsAfter, storeAfter, outputAfter, e]
  | supv raw =>
    injection h with h
    subst h
    refine ⟨?_, rfl, ?_, rfl, ?_, ?_⟩ <;>
      rcases State.supervise_cases raw s with ⟨_, h⟩ | ⟨_, h⟩ <;> rw [h] <;>
      simp [laneAfter, storeAfter]
  | eventShutdown on =>
    injection h with h
    subst h
    cases on
    · rw [State.shutdownEv_off]
      exact ⟨fun i => by simp [laneAfter], rfl, rfl, rfl, rfl, rfl⟩
    · exact ⟨fun _ => rfl, rfl, rfl, rfl, rfl, rfl⟩
  | tick =>
    injection h with h
    subst h
    exact ⟨fun i => by rw [State.tickAll_chan]; rfl, rfl, rfl, rfl, rfl, rfl⟩
  | eventNightsw on =>
    injection h with h
    subst h
    exact ⟨fun i => by rw [State.broadcast_chan]; rfl, rfl, rfl, rfl, rfl, rfl⟩
  | eventTestend on =>
    injection h with h
    subst h
    exact ⟨fun i => by rw [State.testEnd_chan]; rfl, rfl, rfl, rfl, rfl, rfl⟩
  | load =>
    injection h with h
    subst h
    exact ⟨fun i => by rw [State.load_chan]; rfl, rfl, rfl, rfl, rfl, rfl⟩
  | savedef =>
    injection h with h
    subst h
    exact ⟨fun i => by rw [State.saveDefaults_chan]; rfl, rfl, rfl, rfl, rfl, rfl⟩
  | reset =>
    injection h with h
    subst h
    exact ⟨fun i => by rw [State.resetAll_chan]; rfl, rfl, rfl, rfl, rfl, rfl⟩
  | _ =>
    injection h with h
    subst h
    first
      | exact ⟨fun _ => rfl, rfl, rfl, rfl, rfl, rfl⟩
      | exact ⟨fun i => by rw [State.testCh_chan]; rfl, rfl, rfl, rfl, rfl, rfl⟩

end Sys2Proof.Machine
end

