-- ==== Sys2Proof/Laws/PerInstr.lean ====
section
/-! SUPPORT. The per-instruction family TableRow: the encoded word of every instruction matches the mask and
match value of its row of opcode_table.json. -/

namespace Sys2Proof.Laws

/-- The instruction's word lies in its own row of opcode_table.json. -/
def TableRow.Statement (i : Instr) : Prop := encode i &&& tableMask i = tableMatch i

/-- A word whose top four bits are `op` has `op` alone under the mask of the operation field. -/
theorem TableRow.of_opField {w m : Word} {op : BitVec 4} (h : opField w = op)
    (hm : op.setWidth 32 <<< 28 = m) : w &&& 0xF0000000 = m := by
  subst hm h
  ext i hi
  interval_cases i <;> simp [opField, BitVec.getElem_and]

/-- An EVENT word under the mask of the operation and event-number fields. -/
theorem TableRow.of_event (on : Bool) (en : Half) {m : Word}
    (hm : 0x20000000 ||| en.setWidth 32 = m) : formatE on en &&& 0xF000FFFF = m := by
  subst hm
  ext i hi
  interval_cases i <;> simp [formatE, getElem_place, BitVec.getElem_and, BitVec.getElem_or]

theorem TableRow.nop : TableRow.Statement .nop := rfl
theorem TableRow.tick : TableRow.Statement .tick := rfl
theorem TableRow.eventNightsw (on : Bool) : TableRow.Statement (.eventNightsw on) :=
  TableRow.of_event on 0 rfl
theorem TableRow.eventTest1 (on : Bool) : TableRow.Statement (.eventTest1 on) :=
  TableRow.of_event on 1 rfl
theorem TableRow.eventTest2 (on : Bool) : TableRow.Statement (.eventTest2 on) :=
  TableRow.of_event on 2 rfl
theorem TableRow.eventTest3 (on : Bool) : TableRow.Statement (.eventTest3 on) :=
  TableRow.of_event on 3 rfl
theorem TableRow.eventTest4 (on : Bool) : TableRow.Statement (.eventTest4 on) :=
  TableRow.of_event on 4 rfl
theorem TableRow.eventTest5 (on : Bool) : TableRow.Statement (.eventTest5 on) :=
  TableRow.of_event on 5 rfl
theorem TableRow.eventTest6 (on : Bool) : TableRow.Statement (.eventTest6 on) :=
  TableRow.of_event on 6 rfl
theorem TableRow.eventTest7 (on : Bool) : TableRow.Statement (.eventTest7 on) :=
  TableRow.of_event on 7 rfl
theorem TableRow.eventTest8 (on : Bool) : TableRow.Statement (.eventTest8 on) :=
  TableRow.of_event on 8 rfl
theorem TableRow.eventTest9 (on : Bool) : TableRow.Statement (.eventTest9 on) :=
  TableRow.of_event on 9 rfl
theorem TableRow.eventTest10 (on : Bool) : TableRow.Statement (.eventTest10 on) :=
  TableRow.of_event on 10 rfl
theorem TableRow.eventTestend (on : Bool) : TableRow.Statement (.eventTestend on) :=
  TableRow.of_event on 11 rfl
theorem TableRow.eventShutdown (on : Bool) : TableRow.Statement (.eventShutdown on) :=
  TableRow.of_event on 12 rfl
theorem TableRow.eventIgnored (on : Bool) (en : Half) : TableRow.Statement (.eventIgnored on en) :=
  TableRow.of_opField (opField_formatE on en) rfl
theorem TableRow.dnin (lvl : Phase) : TableRow.Statement (.dnin lvl) :=
  TableRow.of_opField (opField_formatL _ _) rfl
theorem TableRow.supv (raw : Half) : TableRow.Statement (.supv raw) :=
  TableRow.of_opField (opField_formatA raw) rfl
theorem TableRow.cfgrd (off : Byte) : TableRow.Statement (.cfgrd off) :=
  TableRow.of_opField (opField_formatR off) rfl
theorem TableRow.cfgwr (off data : Byte) : TableRow.Statement (.cfgwr off data) :=
  TableRow.of_opField (opField_formatW off data) rfl
theorem TableRow.cfgadr (kind : ParamKind) (chn : BitVec 4) (ph : Phase) : TableRow.Statement (.cfgadr kind chn ph) :=
  TableRow.of_opField (opField_formatM _ _ _) rfl
theorem TableRow.load : TableRow.Statement .load := rfl
theorem TableRow.savedef : TableRow.Statement .savedef := rfl
theorem TableRow.emittest (lvl : Bool) : TableRow.Statement (.emittest lvl) :=
  TableRow.of_opField (opField_formatL _ _) rfl
theorem TableRow.statrd (sel : Byte) : TableRow.Statement (.statrd sel) :=
  TableRow.of_opField (opField_formatS sel) rfl
theorem TableRow.reservedC : TableRow.Statement .reservedC := rfl
theorem TableRow.reservedD : TableRow.Statement .reservedD := rfl
theorem TableRow.reservedE : TableRow.Statement .reservedE := rfl
theorem TableRow.reset : TableRow.Statement .reset := rfl

end Sys2Proof.Laws
end

