-- ==== Sys2Proof/Laws/Step.lean ====
section
/-! SUPPORT. What one step does, and the parameters at reset. -/

namespace Sys2Proof.Machine

/-- A step with a command waiting runs the command the word decodes to. -/
theorem step_cons {s : State} {w : Word} {rest : List Word} (h : s.port = w :: rest) :
    step s = exec (decodeWord w) (s.accept rest) := by
  simp [step, h, decode]

/-- A step with no command waiting. -/
theorem step_nil {s : State} (h : s.port = []) : step s = .next s.idle := by
  simp [step, h, decode]

/-- One command of a run of TICKs. -/
theorem tickRun_succ (k : Nat) (s : State) : tickRun (k + 1) s = tickRun k s.tickAll := rfl

/-- A run of TICKs always completes. -/
theorem tickRun_completes (k : Nat) (s : State) : ∃ t, tickRun k s = .next t := by
  induction k generalizing s with
  | zero => exact ⟨s, rfl⟩
  | succ k ih => exact ih s.tickAll

/-- The OPEN parameters meet the constraints of R12, whatever their values (entry 9). -/
theorem Config.params_ok : Config.params.ok := by
  have hp := Config.alarmPeriodPred.isLt
  have hm := Nat.mod_lt Config.alarmOnPred (Nat.succ_pos Config.alarmPeriodPred.val)
  have h1 : Config.params.alarmPeriodMs.toNat = Config.alarmPeriodPred.val + 1 := by
    show (BitVec.ofNat 16 _).toNat = _
    rw [BitVec.toNat_ofNat]
    exact Nat.mod_eq_of_lt (by omega)
  have h2 : Config.params.alarmOnMs.toNat =
      Config.alarmOnPred % (Config.alarmPeriodPred.val + 1) + 1 := by
    show (BitVec.ofNat 16 _).toNat = _
    rw [BitVec.toNat_ofNat]
    exact Nat.mod_eq_of_lt (by simp only [Nat.succ_eq_add_one] at hm; omega)
  refine ⟨Nat.le_add_left 1 _, ?_, ?_⟩
  · omega
  · simp only [Nat.succ_eq_add_one] at hm
    omega

/-- `State.reset` is power-up with a store that lists nothing (R290). -/
theorem State.reset_eq_powerUp : State.reset = State.powerUp [] Config.params := by
  refine State.ext_of_chan ?_ rfl rfl rfl rfl rfl
  decide

end Sys2Proof.Machine
end

