-- ==== Sys2Proof/Tests/Slice0.lean ====
section
/-! SUPPORT. Tests of single steps, with expected values from 95_test_vectors.md, words written out from the
encodings of 30_encoding.md, and one witness for the hypotheses of each statement that has some. -/

namespace Sys2Proof.Tests

open Sys2Proof Sys2Proof.Machine

/-! ## Helpers -/

/-- The test parameter set TP of 95_test_vectors.md, with the parameters of R11 at their stated values. -/
def tp : Params where
  adcZero := 100
  maNum := 5
  maDen := 1
  overampMa := 2000
  uvRaw := 0
  alarmOnMs := 500
  alarmPeriodMs := 2000
  enOutPower := 0
  enOutAlarm := 0
  enOutNight := 0
  enOutTest := 0
  freezeOnPowerFault := false
  modeFallback := .dayNight
  defaultNv := Config.defaultNv

/-- A state whose ten channels are `c`, with parameters TP. -/
def bank (c : Channel) : State :=
  { ch := Vector.replicate 10 c, g := Globals.afterReset, cfg := [], params := tp, out := Output.empty, port := [] }

/-- TP with under-voltage at 50 (section 2.8). -/
def tpUv : Params := { tp with uvRaw := 50 }

/-- Channel 0 of program P1 after LOAD: STEADY at 30 by day, target 200 at night. -/
def p1 : Channel :=
  { Channel.afterReset with dc0 := 30, dc1 := 200, dcCur := 30, secTrans := 6, msPerStep := 35 }

/-- Channel 0 of P1 at NIGHT + 1000: `(T, 1, 1, 0, 58, 19, 0)`. -/
def p1Ramp : Channel :=
  { p1 with state := .transit, phase := .night, trig := .night, dcCur := 58, msCount := 19 }

/-- The channel of section 2.5 in a mode: `dc = [10, 20]`, no delay, no transition time. -/
def chain (m : Mode) : Channel := { Channel.afterReset with dc0 := 10, dc1 := 20, dcCur := 10, mode := m }

/-- A channel in DELAY toward night with a delay in seconds. -/
def waiting (delay : Byte) : Channel :=
  { chain .dayNight with state := .delay, phase := .night, trig := .night, secDelay1 := delay }

/-- The same record with another value of one field. -/
def ms (c : Channel) (n : Half) : Channel := { c with msCount := n }
def at' (c : Channel) (v : Byte) : Channel := { c with dcCur := v }
def enter (c : Channel) (x : ChState) : Channel := { c with state := x }
def forNight (c : Channel) : Channel := { c with phase := .night, trig := .night }

/-- The same state with NIGHT as the phase last broadcast. -/
def atNight (s : State) : State := s.setG { s.g with dayNight := .night }

/-- The next state of a command, if it completes. -/
def after (i : Instr) (s : State) : Option State :=
  match exec i s with
  | .next t => some t
  | .fault _ => none
  | .refused _ => none

/-- The next state of a step, if it completes. -/
def stepped (s : State) : Option State :=
  match step s with
  | .next t => some t
  | .fault _ => none
  | .refused _ => none

/-- What a command leaves in channel 0. -/
def lane0 (i : Instr) (s : State) : Option Channel := (after i s).map fun t => t.chan 0

/-- `(state, phase, seqPos, dcCur)` of channel 0 after a TICK, as section 2.5 prints it. -/
def chainTick (c : Channel) : Option (ChState × Phase × Bool × Byte) :=
  (lane0 .tick (bank c)).map fun d => (d.state, d.phase, d.seqPos, d.dcCur)

/-- What a read command responds. -/
def response (i : Instr) (s : State) : Option Word := (after i s).bind fun t => t.out.response

/-! ## WellFormed: the one check refuses, and accepts at its bound -/

theorem test_wf_refuses_reserved_event : (Instr.eventIgnored true 12).wf = false := by decide
theorem test_wf_accepts_event_13 : (Instr.eventIgnored true 13).wf = true := by decide

/-! ## Decoding: a word for every constructor (95 section 2.1, R109, R110, R92) -/

theorem test_decode_system :
    decodeWord 0x00000000 = .nop ∧ decodeWord 0x0FFFFFFF = .nop ∧ decodeWord 0xC0000000 = .reservedC ∧
    decodeWord 0xD1234567 = .reservedD ∧ decodeWord 0xEFFFFFFF = .reservedE ∧
    decodeWord 0xF0000000 = .reset ∧ decodeWord 0xB0000110 = .statrd 0x10 := by decide

theorem test_decode_engine :
    decodeWord 0x10000000 = .tick ∧ decodeWord 0x1FFFFFFF = .tick ∧ decodeWord 0x40000258 = .supv 600 ∧
    decodeWord 0x4001FFFF = .supv 65535 := by decide

theorem test_decode_switches :
    decodeWord 0x20010000 = .eventNightsw true ∧ decodeWord 0x20FE0000 = .eventNightsw false ∧
    decodeWord 0x2001000B = .eventTestend true ∧ decodeWord 0x2000000B = .eventTestend false ∧
    decodeWord 0x2003000C = .eventShutdown true ∧ decodeWord 0x2000000C = .eventShutdown false ∧
    decodeWord 0x2001000D = .eventIgnored true 13 ∧ decodeWord 0x2001FFFF = .eventIgnored true 65535 := by
  decide

theorem test_decode_test_events :
    decodeWord 0x20010001 = .eventTest1 true ∧ decodeWord 0x20010002 = .eventTest2 true ∧
    decodeWord 0x20000003 = .eventTest3 false ∧ decodeWord 0x20010004 = .eventTest4 true ∧
    decodeWord 0x20010005 = .eventTest5 true ∧ decodeWord 0x20000006 = .eventTest6 false ∧
    decodeWord 0x20010007 = .eventTest7 true ∧ decodeWord 0x20010008 = .eventTest8 true ∧
    decodeWord 0x20010009 = .eventTest9 true ∧ decodeWord 0x2000000A = .eventTest10 false := by decide

theorem test_decode_local :
    decodeWord 0x30000001 = .dnin .night ∧ decodeWord 0x3FFFFFFE = .dnin .day ∧
    decodeWord 0xA0000001 = .emittest true ∧ decodeWord 0xA0000000 = .emittest false := by decide

theorem test_decode_store :
    decodeWord 0x50280000 = .cfgrd 40 ∧ decodeWord 0x5FFF0000 = .cfgrd 255 ∧
    decodeWord 0x602800C8 = .cfgwr 40 200 ∧ decodeWord 0x6F3BAB07 = .cfgwr 59 7 ∧
    decodeWord 0x8ABCDEF0 = .load ∧ decodeWord 0x90000000 = .savedef := by decide

theorem test_decode_cfgadr :
    decodeWord 0x70000131 = .cfgadr .delay 3 .night ∧ decodeWord 0x70000200 = .cfgadr .dc 0 .day ∧
    decodeWord 0x700000C0 = .cfgadr .trans 12 .day ∧ decodeWord 0x7000FF9F = .cfgadr .mode 9 .night := by
  decide

theorem test_encode_words :
    encode (.eventShutdown true) = 0x2001000C ∧ encode (.cfgadr .mode 3 .night) = 0x70000331 ∧
    encode (.cfgwr 40 99) = 0x60280063 ∧ encode (.supv 200) = 0x400000C8 ∧
    encode (.dnin .night) = 0x30000001 ∧ encode (.statrd 0x30) = 0xB0000030 := by decide

theorem test_decodeTableWord :
    decodeTableWord 32 0x2000000A = some (.eventTest10 false) ∧ decodeTableWord 4 0xF = some .nop ∧
    decodeTableWord 40 0 = none := by decide

/-! ## The step -/

theorem test_step_takes_word :
    (stepped ((bank p1).withFetchWord 32 0x20010000)).map (fun t => (t.g.dayNight, t.port, (t.chan 9).state)) =
      some (.night, [], .delay) := by decide

theorem test_step_clears_output :
    (stepped { bank p1 with out := ⟨[⟨.power, true⟩], some 7⟩, port := [0xA0000001, 0] }).map
      (fun t => (t.out.events, t.out.response, t.port)) = some ([⟨.test, true⟩], none, [0]) := by decide

/-! ## Step rate (section 2.3) -/

theorem test_msPerStep :
    [(0, 0, 0), (0, 0, 255), (6, 30, 200), (1, 0, 255), (1, 0, 250), (1, 0, 4), (1, 0, 3), (1, 7, 7),
      (3, 100, 97), (200, 0, 7), (255, 255, 0), (255, 0, 5), (255, 0, 4), (255, 0, 1)].map
      (fun x : Byte × Byte × Byte => deriveMsPerStep x.1 x.2.1 x.2.2) =
    [1, 1, 35, 3, 4, 250, 250, 250, 750, 28571, 1000, 51000, 63750, 63750] := by decide

/-! ## TICK (sections 2.4 and 2.5, R131) -/

theorem test_tick_delay_ends :
    lane0 .tick (bank { waiting 1 with msCount := 999 }) =
      some { waiting 1 with state := .transit, msCount := 0 } := by decide

theorem test_tick_zero_delay_lasts_one :
    lane0 .tick (bank (waiting 0)) = some { waiting 0 with state := .transit } := by decide

theorem test_tick_steps_at_msPerStep :
    lane0 .tick (bank { p1Ramp with dcCur := 30, msCount := 34 }) =
      some { p1Ramp with dcCur := 31, msCount := 0 } := by decide

theorem test_tick_chains_at_night :
    [Mode.dayNight, .dusk, .dawn, .duskDawn, .night010, .day010].map (fun m =>
      chainTick { chain m with state := .transit, phase := .night, trig := .night }) =
    [some (.steady, .night, false, 20), some (.delay, .day, true, 20), some (.steady, .night, false, 20),
      some (.delay, .day, true, 20), some (.delay, .day, true, 20), some (.steady, .night, false, 20)] := by
  decide

theorem test_tick_chains_by_day :
    [Mode.dayNight, .dusk, .dawn, .duskDawn, .night010, .day010].map (fun m =>
      chainTick { chain m with state := .transit, dcCur := 20 }) =
    [some (.steady, .day, false, 10), some (.steady, .day, false, 10), some (.delay, .night, true, 10),
      some (.delay, .night, true, 10), some (.steady, .day, false, 10), some (.delay, .night, true, 10)] := by
  decide

theorem test_tick_second_segments :
    [Mode.dusk, .duskDawn, .night010].map (fun m => chainTick
      { chain m with state := .transit, phase := .day, trig := .night, seqPos := true, dcCur := 20 }) =
    [some (.steady, .day, true, 10), some (.steady, .day, true, 10), some (.delay, .night, false, 10)] := by
  decide

theorem test_tick_frozen_counts_alarm :
    (after .tick { bank p1Ramp with
      params := { tp with freezeOnPowerFault := true }
      g := { Globals.afterReset with alarmActive := true, alarmCnt := 2000 } }).map
        (fun t => (t.chan 0, t.g.alarmCnt)) = some (p1Ramp, 1999) := by decide

/-! ## Events (sections 2.6, 2.10, 2.11, E6, P4) -/

theorem test_nightsw_restarts_mid_ramp :
    lane0 (.eventNightsw false) (bank p1Ramp) =
      some { p1Ramp with state := .delay, phase := .day, trig := .day, msCount := 0 } := by decide

theorem test_dnin_change_echoes :
    (after (.dnin .night) (bank p1)).map (fun t => (t.g.dnInput, t.g.dayNight, t.out.events)) =
      some (.night, .night, [⟨.night, true⟩]) := by decide

theorem test_dnin_compares_with_dnInput :
    after (.dnin .night) { bank p1 with g := { Globals.afterReset with dnInput := .night } } =
      some { bank p1 with g := { Globals.afterReset with dnInput := .night } } := by decide

theorem test_test3_forces_index_2 :
    (after (.eventTest3 true) (bank p1)).map (fun t => (t.duty 1, t.duty 2, t.duty 3)) =
      some (30, 254, 30) := by decide

theorem test_test10_off_forces_one :
    (after (.eventTest10 false) (bank p1)).map (fun t => (t.duty 8, t.duty 9, (t.chan 9).testEn)) =
      some (30, 1, true) := by decide

theorem test_testend_releases :
    lane0 (.eventTestend false) (bank { p1 with testEn := true, testVal := 254 }) = some p1 := by decide

theorem test_shutdown_on_forces_zero :
    (after (.eventShutdown true) (bank p1Ramp)).map (fun t => (t.duty 0, t.chan 0)) = some (0, p1Ramp) := by
  decide

theorem test_shutdown_off_restores_target :
    (after (.eventShutdown false) { bank p1Ramp with g := { Globals.afterReset with shutdown := true } }).map
      (fun t => (t.duty 0, t.chan 0)) = some (200, { p1Ramp with dcCur := 200 }) := by decide

theorem test_emittest_off :
    (after (.emittest false) (bank p1)).map (fun t => t.out.events) = some [⟨.test, false⟩] := by decide

/-! ## The supervisor (section 2.8) -/

theorem test_supv_boundary :
    (after (.supv 500) (bank p1)).map (fun t => (t.g.mA, t.g.overAmp, t.out.events)) =
      some (2000, false, []) ∧
    (after (.supv 501) (bank p1)).map (fun t => (t.g.mA, t.g.overAmp, t.g.alarmCnt, t.out.events)) =
      some (2005, true, 2000, [⟨.alarm, true⟩]) := by decide

theorem test_supv_clears_and_keeps_timer :
    (after (.supv 50) { bank p1 with
      params := tpUv
      g := { Globals.afterReset with underVolt := true, alarmActive := true, alarmCnt := 2000 } }).map
        (fun t => (t.g.underVolt, t.g.alarmActive, t.g.alarmCnt, t.out.events)) =
      some (false, false, 2000, [⟨.alarm, false⟩]) := by decide

theorem test_sample_saturates :
    [0, 100, 101, 600, 13207, 65535].map (sample tp) = [0, 0, 5, 2500, 65535, 65535] := by decide

/-! ## The store, the decoder, LOAD and SAVEDEF (sections 2.2 and 2.7) -/

theorem test_cfgrd :
    response (.cfgrd 40) { bank p1 with cfg := [(40, 200)] } = some 200 ∧
    response (.cfgrd 60) { bank p1 with cfg := [(40, 200)] } = some 0 := by decide

theorem test_cfgwr :
    (after (.cfgwr 40 99) { bank p1 with cfg := [(40, 200)] }).map (fun t => (t.cfg, (t.chan 0).dc1)) =
      some ([(40, 99)], 200) ∧
    (after (.cfgwr 60 5) (bank p1)).map (fun t => t.cfg) = some [] := by decide

theorem test_cfgwr_zero_removes_entry :
    (after (.cfgwr 40 0) { bank p1 with cfg := [(30, 1), (40, 200)] }).map (fun t => t.cfg) =
      some [(30, 1)] := by decide

theorem test_cfgadr :
    [Instr.cfgadr .trans 9 .night, .cfgadr .delay 0 .day, .cfgadr .delay 3 .night, .cfgadr .dc 9 .day,
      .cfgadr .dc 9 .night, .cfgadr .mode 5 .day, .cfgadr .mode 9 .night, .cfgadr .mode 15 .day].map
      (fun i => response i (bank p1)) =
    [some 9, some 10, some 23, some 39, some 49, some 55, some 59, some 65] := by decide

theorem test_load_channel :
    lane0 .load { bank Channel.afterReset with
      cfg := [(0, 6), (30, 30), (40, 200)], g := { Globals.afterReset with dayNight := .night } } =
      some { p1 with phase := .night, trig := .night, dcCur := 200 } := by decide

theorem test_load_clamps_mode :
    (after .load { bank p1 with cfg := [(50, 6), (51, 255), (52, 5)] }).map
      (fun t => ((t.chan 0).mode, (t.chan 1).mode, (t.chan 2).mode)) =
      some (.dayNight, .dayNight, .day010) := by decide

theorem test_savedef :
    (after .savedef (atNight (bank p1))).map
      (fun t => ((t.chan 9).dcCur, (t.chan 9).msPerStep, t.cfg.read 9, t.cfg.read 49, t.cfg.length)) =
      some (255, 19, 5, 255, 20) := by decide

/-! ## System commands (section 2.12) -/

theorem test_reserved_do_nothing :
    after .nop (bank p1) = some (bank p1) ∧ after .reservedC (bank p1) = some (bank p1) ∧
    after .reservedD (bank p1) = some (bank p1) ∧ after .reservedE (bank p1) = some (bank p1) ∧
    after (.eventIgnored true 13) (bank p1) = some (bank p1) := by decide

theorem test_reset :
    (after .reset { bank p1Ramp with
      cfg := [(4, 2), (14, 1), (24, 1), (34, 10), (44, 90), (54, 4)]
      g := { Globals.afterReset with shutdown := true, alarmCnt := 7 } }).map
        (fun t => ((t.chan 4).dcCur, (t.chan 4).msPerStep, (t.chan 4).mode, t.g, t.out.events)) =
      some (10, 25, .night010, Globals.afterReset, [⟨.power, true⟩]) := by decide

/-- Section 2.12, and by hand from R45, R47, R104 and R105: TRANSIT, DELAY and the six modes. -/
theorem test_statrd_channel :
    response (.statrd 0x10) (bank p1) = some 0x1E001E00 ∧
    response (.statrd 0x30) (bank p1) = some 0x0006C81E ∧
    response (.statrd 0x40) (bank p1) = some 0x00230000 ∧
    response (.statrd 0x10) (bank { p1 with phase := .night, trig := .night, dcCur := 200 }) =
      some 0xC800C80C ∧
    response (.statrd 0x10) (bank p1Ramp) = some 0x3A003A0D ∧
    response (.statrd 0x10) (bank (waiting 255)) = some 0x0A000A0E ∧
    [Mode.dayNight, .dusk, .dawn, .duskDawn, .night010, .day010].map (fun m =>
      response (.statrd 0x30) (bank (chain m))) =
      [some 0x0000140A, some 0x0100140A, some 0x0200140A, some 0x0300140A, some 0x0400140A,
        some 0x0500140A] := by decide

theorem test_statrd_global :
    response (.statrd 0x00) { bank p1Ramp with
      g := { Globals.afterReset with
        dayNight := .night, mA := 2500, overAmp := true, alarmActive := true, alarmCnt := 2000 } } =
      some 0x09C40069 ∧
    response (.statrd 0x01) { bank p1 with g := { Globals.afterReset with alarmCnt := 2000 } } =
      some 0x000007D0 ∧
    response (.statrd 0x02) (bank p1) = some 0 ∧ response (.statrd 0x1A) (bank p1) = some 0 := by decide

/-! ## Reset -/

theorem test_reset_memory_wf : Memory.wf State.reset.cfg = true := by decide

/-! ## Witnesses: each statement's hypotheses are met, each clause at its boundary -/

theorem witness_DecodeOfEncodeIsIdentity :
    (Instr.eventIgnored false 13).wf = true ∧ (Instr.cfgadr .mode 15 .night).wf = true := by decide

theorem witness_UnnamedBitsHaveNoEffect :
    opField 0x3FFFFFFF = opField 0x30000001 ∧
    (0x3FFFFFFF : Word) &&& namedBits (opField 0x3FFFFFFF) =
      0x30000001 &&& namedBits (opField 0x3FFFFFFF) := by decide

theorem witness_StepRunsDecodedCommand :
    ((bank p1).present 0x2001000D).port = 0x2001000D :: [] ∧
    decodeWord 0x2001000D = .eventIgnored true 13 ∧ (Instr.eventIgnored true 13).wf = true := by decide

theorem witness_PresentedWordRunsNext : (Instr.eventIgnored true 13).wf = true := by decide

theorem witness_StepWithoutCommandIdles : (bank p1).port = [] := by decide

theorem witness_StepConsumesOneWordKeepsParameters :
    step (bank p1) = .next (bank p1) ∧ step ((bank p1).present 0x00000000) = .next (bank p1) :=
  ⟨rfl, rfl⟩

/-- Every `RowDecodes` clause has a word in its row with all unnamed bits set. -/
theorem witness_RowDecodes :
    (0x0FFFFFFF : Word) &&& 0xF0000000 = 0x00000000 ∧ (0x1FFFFFFF : Word) &&& 0xF0000000 = 0x10000000 ∧
    (0x2FFF0000 : Word) &&& 0xF000FFFF = 0x20000000 ∧ (0x2FFF0001 : Word) &&& 0xF000FFFF = 0x20000001 ∧
    (0x2FFF0002 : Word) &&& 0xF000FFFF = 0x20000002 ∧ (0x2FFF0003 : Word) &&& 0xF000FFFF = 0x20000003 ∧
    (0x2FFF0004 : Word) &&& 0xF000FFFF = 0x20000004 ∧ (0x2FFF0005 : Word) &&& 0xF000FFFF = 0x20000005 ∧
    (0x2FFF0006 : Word) &&& 0xF000FFFF = 0x20000006 ∧ (0x2FFF0007 : Word) &&& 0xF000FFFF = 0x20000007 ∧
    (0x2FFF0008 : Word) &&& 0xF000FFFF = 0x20000008 ∧ (0x2FFF0009 : Word) &&& 0xF000FFFF = 0x20000009 ∧
    (0x2FFF000A : Word) &&& 0xF000FFFF = 0x2000000A ∧ (0x2FFF000B : Word) &&& 0xF000FFFF = 0x2000000B ∧
    (0x2FFF000C : Word) &&& 0xF000FFFF = 0x2000000C ∧ (0x3FFFFFFF : Word) &&& 0xF0000000 = 0x30000000 ∧
    (0x4FFFFFFF : Word) &&& 0xF0000000 = 0x40000000 ∧ (0x5FFFFFFF : Word) &&& 0xF0000000 = 0x50000000 ∧
    (0x6FFFFFFF : Word) &&& 0xF0000000 = 0x60000000 ∧ (0x7FFFFFFF : Word) &&& 0xF0000000 = 0x70000000 ∧
    (0x8FFFFFFF : Word) &&& 0xF0000000 = 0x80000000 ∧ (0x9FFFFFFF : Word) &&& 0xF0000000 = 0x90000000 ∧
    (0xAFFFFFFF : Word) &&& 0xF0000000 = 0xA0000000 ∧ (0xBFFFFFFF : Word) &&& 0xF0000000 = 0xB0000000 ∧
    (0xCFFFFFFF : Word) &&& 0xF0000000 = 0xC0000000 ∧ (0xDFFFFFFF : Word) &&& 0xF0000000 = 0xD0000000 ∧
    (0xEFFFFFFF : Word) &&& 0xF0000000 = 0xE0000000 ∧ (0xFFFFFFFF : Word) &&& 0xF0000000 = 0xF0000000 := by
  decide

theorem witness_UnknownEventsAreIgnored :
    (0x2FFE000D : Word) &&& 0xF0000000 = 0x20000000 ∧ 13 ≤ ((0x2FFE000D : Word).extractLsb' 0 16).toNat ∧
    (0x2001FFFF : Word) &&& 0xF0000000 = 0x20000000 ∧ 13 ≤ ((0x2001FFFF : Word).extractLsb' 0 16).toNat := by
  decide

theorem witness_AddressMapIsOneToOneOntoStore :
    (9 : BitVec 4).toNat < 10 ∧ cfgAddr .trans 9 .day = cfgAddr .trans 9 .night ∧
    cfgAddr .mode 0 .day = cfgAddr .mode 0 .night ∧ 59 < 60 := by decide

theorem witness_CfgadrRespondsStoreOffset : (9 : BitVec 4).toNat < 10 := by decide

theorem witness_CfgadrOutsideDomainUsesFormula :
    10 ≤ (10 : BitVec 4).toNat ∧ 10 ≤ (15 : BitVec 4).toNat := by decide

/-- For CFGRD, CFGWR and the store order: mapped and unmapped offsets meet at 59 and 60. -/
theorem witness_StoreOffsets :
    (59 : Byte).toNat < 60 ∧ 60 ≤ (60 : Byte).toNat ∧ (58 : Nat) ≠ (59 : Byte).toNat ∧
    (58 : Byte) ≠ 59 := by decide

/-- A store whose Mode bytes of channels 0 to 6 are 0 to 6. -/
def modeBytes : Memory := [(51, 1), (52, 2), (53, 3), (54, 4), (55, 5), (56, 6)]

/-- LOAD's mode byte at each code and past the last one. -/
theorem witness_ModeByteIsClampedAtLoad :
    [0, 1, 2, 3, 4, 5, 6].map (fun i : ChanIdx => modeBytes.read (50 + i.val)) =
      [(0 : Byte), 1, 2, 3, 4, 5, 6] ∧ 6 ≤ (6 : Byte).toNat := by decide

theorem witness_LoadThenReadRoundTrips :
    (modeBytes.read (cfgAddr .mode (BitVec.ofNat 4 (5 : ChanIdx).val) .day).toNat).toNat ≤ 5 ∧
    ParamKind.delay ≠ .mode := by decide

theorem witness_SavedefWritesDefaultsAndLoads :
    (bank p1).params.defaultNv =
      { trans := 5, delay0 := 0, delay1 := 0, dc0 := 0, dc1 := 255, mode := 0 } ∧
    (bank p1).g.dayNight = .day ∧
    ((bank p1).setG { Globals.afterReset with dayNight := .night }).g.dayNight = .night ∧
    (60 : Nat) ≤ 60 := by decide

theorem witness_TickAdvancesLanesAndAlarmTimer :
    (bank p1).params.freezeOnPowerFault = false ∧ (bank p1).g.alarmActive = false ∧
    ({ tp with freezeOnPowerFault := true } : Params).freezeOnPowerFault = true ∧
    ({ Globals.afterReset with alarmActive := true } : Globals).alarmActive = true := by decide

theorem witness_TickLeavesSteadyChannelsAlone :
    (∀ i : ChanIdx, ((bank p1).chan i).state = .steady) ∧ (bank p1).g.alarmCnt = 0 := by decide

/-- The four clauses: counting in a running delay, the tick of a zero delay, the 1000th tick of a second that
does not end the delay, and the one that does. -/
theorem witness_DelayTickCountsThenLeaves :
    (bank (waiting 0)).frozen = false ∧
    (waiting 1).ok ∧ (waiting 1).state = .delay ∧ (waiting 1).msCount.toNat + 1 < 1000 ∧
    (waiting 1).secCount ≠ (waiting 1).secDelay (waiting 1).phase ∧
    (waiting 0).ok ∧ (waiting 0).secCount = (waiting 0).secDelay (waiting 0).phase ∧
    (ms (waiting 2) 999).ok ∧ (999 : Half).toNat + 1 = 1000 ∧
    (waiting 2).secCount.toNat + 1 ≠ ((waiting 2).secDelay (waiting 2).phase).toNat ∧
    (ms (waiting 1) 999).ok ∧
    (waiting 1).secCount.toNat + 1 = ((waiting 1).secDelay (waiting 1).phase).toNat := by
  repeat' apply And.intro
  all_goals decide

/-- The six clauses: no transition time; at the target; counting; the last step, upward and downward; a step
short of the target, upward and downward. -/
theorem witness_TransitTickRampsAndEndsSegment :
    (bank p1Ramp).frozen = false ∧
    (enter (chain .dusk) .transit).ok ∧ (chain .dusk).secTrans = 0 ∧
    (at' p1Ramp 200).ok ∧ p1Ramp.secTrans ≠ 0 ∧ p1Ramp.target = 200 ∧
    p1Ramp.ok ∧ p1Ramp.state = .transit ∧ p1Ramp.dcCur ≠ p1Ramp.target ∧
    p1Ramp.msCount.toNat + 1 ≠ p1Ramp.msPerStep.toNat ∧
    (ms p1Ramp 34).ok ∧ (34 : Half).toNat + 1 = p1Ramp.msPerStep.toNat ∧
    (at' (ms p1Ramp 34) 199).ok ∧
    (199 : Byte).toNat + 1 = p1Ramp.target.toNat ∧
    (at' (ms p1Ramp 34) 201).ok ∧
    (201 : Byte).toNat = p1Ramp.target.toNat + 1 ∧
    (198 : Byte).toNat + 1 < p1Ramp.target.toNat ∧ p1Ramp.target.toNat + 1 < (202 : Byte).toNat := by
  repeat' apply And.intro
  all_goals decide

/-- A delay of 0 s and one of 255 s, with and without a transition time. -/
theorem witness_SegmentLastsItsDelayAndRamp :
    (bank p1).frozen = false ∧ (waiting 0).ok ∧ (waiting 0).state = .delay ∧ (waiting 0).msCount = 0 ∧
    (waiting 0).secCount = 0 ∧ (waiting 0).secTrans = 0 ∧ (waiting 255).ok ∧
    (ms (enter p1Ramp .delay) 0).ok ∧ p1Ramp.secTrans ≠ 0 ∧
    max 1 (1000 * ((waiting 255).secDelay (waiting 255).phase).toNat) = 255000 := by
  repeat' apply And.intro
  all_goals decide

/-- A ramp below and above its target, and a channel without a transition time short of its target. -/
theorem witness_TransitConvergesWithoutOvershoot :
    p1Ramp.ok ∧ p1Ramp.state = .transit ∧ (bank p1Ramp).frozen = false ∧
    p1Ramp.dcCur.toNat ≤ p1Ramp.target.toNat ∧ p1Ramp.secTrans ≠ 0 ∧
    (at' p1Ramp 201).ok ∧ p1Ramp.target.toNat ≤ (201 : Byte).toNat ∧
    (at' (enter (chain .dusk) .transit) 7).ok ∧ (at' (enter (chain .dusk) .transit) 7).state = .transit ∧
    (at' (enter (chain .dusk) .transit) 7).secTrans = 0 ∧
    (at' (enter (chain .dusk) .transit) 7).dcCur ≠ (at' (enter (chain .dusk) .transit) 7).target ∧
    (bank (at' (enter (chain .dusk) .transit) 7)).frozen = false := by
  repeat' apply And.intro
  all_goals decide

/-- A last segment that ends on this tick, and a repeating chain under a TICK. -/
theorem witness_ChainsEndSteadyOrCycle :
    (enter (chain .dusk) .transit).ok ∧ segmentAfter .dusk .day false = none ∧
    (chainTick { chain .dusk with state := .transit }).map (fun x => x.1) = some .steady ∧
    (enter (forNight (chain .night010)) .transit).cycling ∧
    (enter (chain .day010) .delay).cycling ∧
    (after .tick (bank (enter (chain .day010) .delay))).isSome = true := by decide

theorem witness_TickLanesAreIndependent :
    (bank p1).chan 3 = ((bank p1).testCh 4 true).chan 3 ∧ (bank p1) ≠ ((bank p1).testCh 4 true) ∧
    (bank p1).params.freezeOnPowerFault = ((bank p1).testCh 4 true).params.freezeOnPowerFault ∧
    (bank p1).g.alarmActive = ((bank p1).testCh 4 true).g.alarmActive := by decide

theorem witness_LocalInputActsOnChange :
    Phase.day = (bank p1).g.dnInput ∧ Phase.night ≠ (bank p1).g.dnInput := by decide

theorem witness_TestEventsForceOneChannel :
    (Instr.eventTest10 false, (9 : ChanIdx)) ∈ [(Instr.eventTest1 false, (0 : ChanIdx)),
      (.eventTest2 false, 1), (.eventTest3 false, 2), (.eventTest4 false, 3), (.eventTest5 false, 4),
      (.eventTest6 false, 5), (.eventTest7 false, 6), (.eventTest8 false, 7), (.eventTest9 false, 8),
      (.eventTest10 false, 9)] ∧ (8 : ChanIdx) ≠ 9 := by decide

theorem witness_ShutdownPairRestoresLoadedTargets :
    (bank p1).g.alarmActive = false ∧ ((bank p1).chan 0).testEn = false ∧
    ((bank { p1 with testEn := true, testVal := 254 }).chan 0).testEn = true ∧
    ((bank p1).supervise 501).g.alarmActive = true := by decide

/-- A sample at the over-current bound is no fault, one above it is, and one below the under-voltage bound is. -/
theorem witness_SupervisoryPassSetsFaultState :
    (2000 : Nat) = (if tp.adcZero.toNat < (500 : Half).toNat then
      min 65535 ((((500 : Half).toNat - tp.adcZero.toNat) * tp.maNum) / tp.maDen) else 0) ∧
    false = (decide (tp.overampMa.toNat < 2000) || decide ((500 : Half).toNat < tp.uvRaw.toNat)) ∧
    (2005 : Nat) = (if tp.adcZero.toNat < (501 : Half).toNat then
      min 65535 ((((501 : Half).toNat - tp.adcZero.toNat) * tp.maNum) / tp.maDen) else 0) ∧
    true = (decide (tp.overampMa.toNat < 2005) || decide ((501 : Half).toNat < tp.uvRaw.toNat)) ∧
    true = (decide (tpUv.overampMa.toNat < 0) || decide ((49 : Half).toNat < tpUv.uvRaw.toNat)) := by decide

theorem witness_FaultBlacksOutThenRestoresExactly :
    (bank p1).g.alarmActive = false ∧ faultSample (bank p1).params 501 ∧
    ¬ faultSample (bank p1).params 500 := by
  unfold faultSample
  decide

theorem witness_AlarmSoundsForItsOnTime :
    (bank p1).params.ok ∧ (bank p1).g.alarmCnt = 0 ∧ faultSample (bank p1).params 501 := by
  unfold faultSample
  decide

theorem witness_OutputPriority :
    ((bank p1).supervise 501).g.alarmActive = true ∧
    ((bank p1).shutdownEv true).g.alarmActive = false ∧ ((bank p1).shutdownEv true).g.shutdown = true ∧
    ((bank p1).testCh 9 true).g.shutdown = false ∧ (((bank p1).testCh 9 true).chan 9).testEn = true ∧
    ((bank p1).chan 9).testEn = false := by decide

theorem witness_StatrdUnlistedSelectorsReadZero :
    [0x02, 0x0F, 0x1A, 0x1F, 0x2A, 0x3A, 0x4A, 0xFF].all (fun sel : Byte =>
      decide (2 ≤ sel.toNat) && (List.range 10).all fun i =>
        decide (sel.toNat ≠ 0x10 + i ∧ sel.toNat ≠ 0x20 + i ∧ sel.toNat ≠ 0x30 + i ∧
          sel.toNat ≠ 0x40 + i)) = true := by decide

theorem witness_ResetEqualsPowerUp : (bank p1).out = { events := [], response := none } := by decide

/-- For the rules over all commands: a command that does write what the rule is about. -/
theorem witness_ConfigurationWrittenOnlyByLoads :
    (after .load (bank p1)).map (fun t => decide ((t.chan 0).config ≠ ((bank p1).chan 0).config)) =
      some true := by decide

theorem witness_TestOverrideWriters :
    (after (.eventTest1 true) (bank p1)).map
      (fun t => decide ((t.chan 0).override ≠ ((bank p1).chan 0).override)) = some true := by decide

theorem witness_EngineFieldWriters :
    (after .tick (bank { p1Ramp with msCount := 34 })).map (fun t =>
      decide ((t.chan 0).dcCur ≠ p1Ramp.dcCur) && decide ((t.chan 0).progress ≠ p1Ramp.progress)) =
      some true := by decide

theorem witness_GlobalRegisterWriters :
    (after (.supv 501) (bank p1)).map (fun t =>
      decide (t.g.mA ≠ (bank p1).g.mA) && decide (t.g.alarmCnt ≠ (bank p1).g.alarmCnt)) = some true ∧
    (after (.dnin .night) (bank p1)).map (fun t =>
      decide (t.g.dayNight ≠ (bank p1).g.dayNight) && decide (t.g.dnInput ≠ (bank p1).g.dnInput)) =
      some true ∧
    (after (.eventShutdown true) (bank p1)).map (fun t => decide (t.g.shutdown ≠ (bank p1).g.shutdown)) =
      some true := by decide

theorem witness_StoreWrittenOnlyByCfgwrAndSavedef :
    (after (.cfgwr 59 7) (bank p1)).map (fun t => decide (t.cfg ≠ (bank p1).cfg)) = some true := by decide

theorem witness_EventsEmittedExactlyAsListed :
    (after (.supv 501) (bank p1)).isSome = true ∧ (after .reset (bank p1)).isSome = true ∧
    (⟨.power, false⟩ : OutEvent) ∈ [(⟨.power, false⟩ : OutEvent)] := by decide

theorem witness_ResponsesOnlyFromReads :
    (after (.cfgrd 60) (bank p1)).map (fun t => decide (t.out.response ≠ (bank p1).out.response)) =
      some true := by decide

/-- A legal state in the middle of a ramp, at night, and a step from it. -/
theorem witness_StepKeepsLegalState :
    ((atNight (bank p1Ramp)).present 0x10000000).inv ∧
    (stepped ((atNight (bank p1Ramp)).present 0x10000000)).map
        (fun t => ((t.chan 0).msCount, t.port)) = some (20, []) := by decide

theorem witness_NoCounterWrapsInLegalStates : State.inv (bank p1) := by decide

end Sys2Proof.Tests
end

/-! PROOFS of the statements about the step and the reset state. First the round trip of the encoder and the
frame of a step, then one theorem per statement. -/

namespace Sys2Proof

/-! ## The encoder and the decoder -/

/-- The host's numeral of a whole word is that word (R77). -/
@[simp] theorem numeralWord_toNat (w : Word) : numeralWord 32 w.toNat = w := by
  rw [numeralWord, Nat.mod_eq_of_lt w.isLt, BitVec.ofNat_toNat, BitVec.setWidth_eq]

/-- An EVENT word decodes through the event-number map (R94, R103). -/
@[simp] theorem decodeWord_formatE (on : Bool) (en : Half) :
    decodeWord (formatE on en) = decodeEvent on en := by
  simp [decodeWord]

/-- Decoding gives back every well-formed instruction (R90 to R108). EVENT.IGNORED is the one instruction with
an event number of its own, which must lie past the named ones. -/
theorem decodeWord_encode {i : Instr} (h : i.wf = true) : decodeWord (encode i) = i := by
  cases i with
  | eventIgnored on en =>
    have hen : 13 ≤ en.toNat := of_decide_eq_true h
    exact (decodeWord_formatE on en).trans (decodeEvent_ignored on hen)
  | eventNightsw on | eventTest1 on | eventTest2 on | eventTest3 on | eventTest4 on | eventTest5 on
  | eventTest6 on | eventTest7 on | eventTest8 on | eventTest9 on | eventTest10 on | eventTestend on
  | eventShutdown on => exact decodeWord_formatE on _
  | nop | tick | load | savedef | reservedC | reservedD | reservedE | reset => rfl
  | dnin lvl | emittest lvl | supv raw | cfgrd off | cfgwr off data | cfgadr kind chn ph | statrd sel =>
    simp [encode, decodeWord]

namespace Machine

/-! ## The step -/

/-- Presenting a word and taking it again leaves the waiting words as they were. -/
@[simp] theorem State.accept_present (s : State) (w : Word) : (s.present w).accept s.port = s.idle := rfl

/-- A command takes no waiting word and writes no parameter. -/
theorem exec_port_params {i : Instr} {s t : State} (h : exec i s = .next t) :
    t.port = s.port ∧ t.params = s.params := by
  obtain ⟨-, -, -, -, hparams, hport⟩ := exec_next h
  exact ⟨hport, hparams⟩

/-- Settles O10: without a word the step idles, and with one only `State.accept` touches the port. -/
theorem stepConsumesOneWordKeepsParameters : Obligations.StepConsumesOneWordKeepsParameters := by
  intro s t h
  cases hport : s.port with
  | nil =>
    rw [step_nil hport] at h
    injection h with h
    subst h
    exact ⟨hport, rfl⟩
  | cons w rest =>
    rw [step_cons hport] at h
    exact exec_port_params h

/-- Settles O6. -/
theorem stepRunsDecodedCommand : Obligations.StepRunsDecodedCommand := by
  intro s w rest i hport hdec _
  rw [step_cons hport, hdec]
  rfl

/-- Settles O7, by the round trip of the encoder: the presented word is the first one waiting. -/
theorem presentedWordRunsNext : Obligations.PresentedWordRunsNext := by
  intro s i hwf
  have hport : (s.withFetchWord 32 (encode i).toNat).port = encode i :: s.port := by
    simp [State.withFetchWord]
  rw [step_cons hport, decodeWord_encode hwf]
  simp [State.withFetchWord, State.idle, Output.empty]

/-- Settles O9. -/
theorem stepWithoutCommandIdles : Obligations.StepWithoutCommandIdles :=
  fun _ hport => step_nil hport

/-! ## The reset state -/

@[simp] theorem State.reset_chan (i : ChanIdx) : State.reset.chan i = Channel.afterReset := by
  simp [State.chan, State.reset]

theorem Channel.afterReset_ok : Channel.afterReset.ok := by decide

/-- The registers R49 gives agree with each other under every parameter set: a current of 0 is over no bound. -/
theorem Globals.afterReset_ok (p : Params) : Globals.afterReset.ok p := by
  have hcur : overCurrent p 0 = false := decide_eq_false (Nat.not_lt_zero _)
  exact ⟨hcur.symm, rfl, Nat.zero_le _⟩

/-- Settles O58, register file by register file; `Config.params_ok` holds for every value of the OPEN
parameters. -/
theorem resetStateIsLegal : Obligations.ResetStateIsLegal := by
  refine ⟨Memory.wf_nil, Config.params_ok, Globals.afterReset_ok _, fun i => ?_⟩
  rw [State.reset_chan]
  exact ⟨Channel.afterReset_ok, rfl⟩

end Machine
end Sys2Proof

/-! PROOFS of the statements about the registers. First who writes a channel record and the global registers,
then the invariant, then the status map. -/

namespace Sys2Proof.Machine

/-! ## Who writes a channel record -/

/-- The command `j`, performed on `s`, leaves the record `c` in channel `i`: every command that writes the
record has a constructor of its own, and every command may keep it (R34 to R38). -/
inductive LaneWrite (s : State) (i : ChanIdx) : Instr → Channel → Prop where
  | keep (j : Instr) : LaneWrite s i j (s.chan i)
  | tick : LaneWrite s i .tick (s.chan i).tick
  | nightsw (on : Bool) : LaneWrite s i (.eventNightsw on) ((s.chan i).trigger (Phase.ofBool on))
  | dnin (lvl : Phase) : LaneWrite s i (.dnin lvl) ((s.chan i).trigger lvl)
  | test (on : Bool) : LaneWrite s i (testCommand i on) ((s.chan i).forceTest on)
  | testend (on : Bool) : LaneWrite s i (.eventTestend on) (s.chan i).releaseTest
  | restore : LaneWrite s i (.eventShutdown false) (s.chan i).restoreTarget
  | load : LaneWrite s i .load (loadChannel s.params s.cfg s.g.dayNight i (s.chan i))
  | savedef : LaneWrite s i .savedef
      (loadChannel s.params (saveAllDefaults s.params.defaultNv s.cfg) s.g.dayNight i (s.chan i))
  | reset : LaneWrite s i .reset (loadChannel s.params s.cfg .day i (s.chan i).releaseTest)

/-- A test event forces the record of its own channel and keeps the others. -/
theorem LaneWrite.of_test (s : State) (i n : ChanIdx) (on : Bool) :
    LaneWrite s i (testCommand n on) (if i = n then (s.chan i).forceTest on else s.chan i) := by
  split
  · next h => exact h ▸ .test on
  · exact .keep _

theorem laneWrite_laneAfter (j : Instr) (s : State) (i : ChanIdx) : LaneWrite s i j (laneAfter j s i) := by
  cases j with
  | tick =>
    simp only [laneAfter]
    split
    · exact .keep _
    · exact .tick
  | eventNightsw on => exact .nightsw on
  | eventTest1 on => exact .of_test s i 0 on
  | eventTest2 on => exact .of_test s i 1 on
  | eventTest3 on => exact .of_test s i 2 on
  | eventTest4 on => exact .of_test s i 3 on
  | eventTest5 on => exact .of_test s i 4 on
  | eventTest6 on => exact .of_test s i 5 on
  | eventTest7 on => exact .of_test s i 6 on
  | eventTest8 on => exact .of_test s i 7 on
  | eventTest9 on => exact .of_test s i 8 on
  | eventTest10 on => exact .of_test s i 9 on
  | eventTestend on => exact .testend on
  | eventShutdown on =>
    cases on
    · exact .restore
    · exact .keep _
  | dnin lvl =>
    simp only [laneAfter]
    split
    · exact .keep _
    · exact .dnin lvl
  | load => exact .load
  | savedef => exact .savedef
  | reset => exact .reset
  | _ => exact .keep _

theorem laneWrite_of_exec {j : Instr} {s t : State} (h : exec j s = .next t) (i : ChanIdx) :
    LaneWrite s i j (t.chan i) := by
  obtain ⟨hlane, -⟩ := exec_next h
  exact hlane i ▸ laneWrite_laneAfter j s i

/-- Only the loads write the configuration fields (R34). -/
theorem LaneWrite.config_eq_or {s : State} {i : ChanIdx} {j : Instr} {c : Channel} (h : LaneWrite s i j c) :
    c.config = (s.chan i).config ∨ j = .load ∨ j = .savedef ∨ j = .reset := by
  cases h with
  | tick => exact .inl (s.chan i).tick_frame.1
  | load | savedef | reset => simp
  | keep | nightsw | dnin | test | testend | restore => exact .inl rfl

/-- Only the channel's own test event, TESTEND and RESET write the test override (R38). -/
theorem LaneWrite.override_eq_or {s : State} {i : ChanIdx} {j : Instr} {c : Channel}
    (h : LaneWrite s i j c) : c.override = (s.chan i).override ∨
      (∃ on, j = testCommand i on ∨ j = .eventTestend on) ∨ j = .reset := by
  cases h with
  | tick => exact .inl (s.chan i).tick_frame.2.1
  | test on => exact .inr (.inl ⟨on, .inl rfl⟩)
  | testend on => exact .inr (.inl ⟨on, .inr rfl⟩)
  | reset => exact .inr (.inr rfl)
  | keep | nightsw | dnin | restore | load | savedef => exact .inl rfl

/-- A tick of a delay counts, and leaves the duty cycle (R134). -/
theorem Channel.delayTick_dcCur (c : Channel) : c.delayTick.dcCur = c.dcCur := by
  have hcount : c.countMs.dcCur = c.dcCur := by
    rcases c.countMs_cases with ⟨_, h⟩ | ⟨_, h⟩ <;> rw [h]
  unfold Channel.delayTick
  split <;> exact hcount

/-- A tick moves the duty cycle in TRANSIT only (R133 to R135). -/
theorem Channel.tick_dcCur {c : Channel} (h : c.state ≠ .transit) : c.tick.dcCur = c.dcCur := by
  cases hs : c.state with
  | steady => rw [Channel.tick_steady hs]
  | transit => exact absurd hs h
  | delay => rw [Channel.tick_delay hs, Channel.delayTick_dcCur]

/-- Only a TICK in TRANSIT, SHUTDOWN off and the loads write the duty cycle (R35). -/
theorem LaneWrite.dcCur_eq_or {s : State} {i : ChanIdx} {j : Instr} {c : Channel} (h : LaneWrite s i j c) :
    c.dcCur = (s.chan i).dcCur ∨ (j = .tick ∧ (s.chan i).state = .transit) ∨
      j = .eventShutdown false ∨ j = .load ∨ j = .savedef ∨ j = .reset := by
  cases h with
  | tick =>
    by_cases hs : (s.chan i).state = .transit
    · exact .inr (.inl ⟨rfl, hs⟩)
    · exact .inl (Channel.tick_dcCur hs)
  | restore | load | savedef | reset => simp
  | keep | nightsw | dnin | test | testend => exact .inl rfl

/-- Only TICK, the day/night triggers and the loads write the chain fields (R36, R37). -/
theorem LaneWrite.progress_eq_or {s : State} {i : ChanIdx} {j : Instr} {c : Channel}
    (h : LaneWrite s i j c) : c.progress = (s.chan i).progress ∨
      j = .tick ∨ (∃ on, j = .eventNightsw on) ∨ (∃ lvl, j = .dnin lvl) ∨
      j = .load ∨ j = .savedef ∨ j = .reset := by
  cases h with
  | tick | nightsw | dnin | load | savedef | reset => simp
  | keep | test | testend | restore => exact .inl rfl

/-- Settles O50. -/
theorem configurationWrittenOnlyByLoads : Obligations.ConfigurationWrittenOnlyByLoads :=
  fun _ _ _ i h hne => (laneWrite_of_exec h i).config_eq_or.resolve_left hne

/-- Settles O51. -/
theorem testOverrideWriters : Obligations.TestOverrideWriters :=
  fun _ _ _ i h hne => (laneWrite_of_exec h i).override_eq_or.resolve_left hne

/-- Settles O52. -/
theorem engineFieldWriters : Obligations.EngineFieldWriters :=
  fun _ _ _ i h => ⟨(laneWrite_of_exec h i).dcCur_eq_or.resolve_left,
    (laneWrite_of_exec h i).progress_eq_or.resolve_left⟩

/-! ## Who writes the global registers -/

/-- The registers a supervisory pass leaves: the sensed ones, the override with the fault, and the timer
loaded when a fault finds it idle (R192, R197). -/
theorem State.supervise_g (raw : Half) (s : State) :
    (s.supervise raw).g = { s.g.sensed s.params raw with
      alarmActive := (s.g.sensed s.params raw).faulty
      alarmCnt := if (s.g.sensed s.params raw).faulty = true ∧ s.g.alarmCnt = 0 then s.params.alarmPeriodMs
        else s.g.alarmCnt } := by
  have hfaulty := Globals.faulty_sensed s.g s.params raw
  rcases State.supervise_cases raw s with ⟨hf, h⟩ | ⟨hf, h⟩
  · rw [h, State.enterFault_g, hfaulty.mpr hf]
    simp only [true_and]
    rfl
  · rw [h, State.exitFault_g, Bool.eq_false_iff.mpr (mt hfaulty.mp hf)]
    simp only [Bool.false_eq_true, false_and, if_false]
    rfl

/-- Settles O53, command by command: each writes the registers its record update names. -/
theorem globalRegisterWriters : Obligations.GlobalRegisterWriters := by
  intro j s t h
  obtain ⟨-, hg, -⟩ := exec_next h
  rw [hg]
  cases j with
  | tick => simp [globalsAfter, Globals.tickAlarm_eq]
  | supv raw => simp [globalsAfter, State.supervise_g, Globals.sensed]
  | dnin lvl => by_cases hl : lvl = s.g.dnInput <;> simp [globalsAfter, hl]
  | eventNightsw on | eventShutdown on | reset => simp [globalsAfter]
  | _ => simp [globalsAfter]

/-! ## The invariant: the channel records -/

/-- The step rate as a number: 255 seconds over the smallest span of 4 fit in 16 bits, so nothing wraps (R130). -/
theorem deriveMsPerStep_toNat (secTrans dc0 dc1 : Byte) :
    (deriveMsPerStep secTrans dc0 dc1).toNat = max (secTrans.toNat * 1000 / max (absDiff dc1 dc0) 4) 1 := by
  have hsec := secTrans.isLt
  have hfits : secTrans.toNat * 1000 / max (absDiff dc1 dc0) 4 < 2 ^ 16 :=
    Nat.lt_of_le_of_lt (Nat.div_le_div_left (Nat.le_max_right _ _) (by decide)) (by omega)
  exact Nat.mod_eq_of_lt (Nat.max_lt.mpr ⟨hfits, by decide⟩)

theorem deriveMsPerStep_pos (secTrans dc0 dc1 : Byte) : 0 < (deriveMsPerStep secTrans dc0 dc1).toNat := by
  rw [deriveMsPerStep_toNat]
  exact Nat.le_max_right _ 1

/-- The chain part of `Channel.ok` (R37). -/
def Channel.chainOk (c : Channel) : Prop :=
  c.phase = c.trig.xor c.seqPos ∧ c.seqPos.toNat < chainLen c.mode c.trig

/-- The step-rate part of `Channel.ok` (R34, R130). -/
def Channel.rateOk (c : Channel) : Prop := c.msPerStep = deriveMsPerStep c.secTrans c.dc0 c.dc1

/-- The test part of `Channel.ok` (R38). -/
def Channel.overrideOk (c : Channel) : Prop :=
  (c.testEn = true → c.testVal = 1 ∨ c.testVal = 254) ∧ (c.testEn = false → c.testVal = 0)

theorem Channel.ok_iff (c : Channel) : c.ok ↔ c.chainOk ∧ c.rateOk ∧ c.countersOk ∧ c.overrideOk :=
  and_assoc.symm

/-- The step rate is a matter of the configuration fields alone. -/
theorem Channel.rateOk.of_config {c d : Channel} (hc : c.rateOk) (h : d.config = c.config) : d.rateOk := by
  simp only [Channel.config, Prod.mk.injEq] at h
  obtain ⟨hdc0, hdc1, htrans, -, -, -, hrate⟩ := h
  rwa [Channel.rateOk, hdc0, hdc1, htrans, hrate]

theorem Channel.overrideOk.of_override {c d : Channel} (hc : c.overrideOk) (h : d.override = c.override) :
    d.overrideOk := by
  simp only [Channel.override, Prod.mk.injEq] at h
  obtain ⟨hen, hval⟩ := h
  rwa [Channel.overrideOk, hen, hval]

/-- A chain at its first position is in place, whatever its mode. -/
theorem Channel.chainOk_first {c : Channel} (hp : c.phase = c.trig) (hs : c.seqPos = false) : c.chainOk := by
  rw [Channel.chainOk, hp, hs]
  exact ⟨rfl, chainLen_pos _ _⟩

theorem Channel.countersOk_of_steady {c : Channel} (hs : c.state = .steady) (hms : c.msCount = 0)
    (hsec : c.secCount = 0) (hcur : c.dcCur = c.target) : c.countersOk :=
  ⟨fun _ => ⟨hms, hsec, hcur⟩, by simp [hs], by simp [hs]⟩

theorem Channel.countersOk_of_delay {c : Channel} (hs : c.state = .delay) (hms : c.msCount.toNat < 1000)
    (hsec : c.secCount.toNat < (c.secDelay c.phase).toNat ∨
      c.secDelay c.phase = 0 ∧ c.secCount = 0 ∧ c.msCount = 0) : c.countersOk :=
  ⟨by simp [hs], fun _ => ⟨hms, hsec⟩, by simp [hs]⟩

theorem Channel.countersOk_of_transit {c : Channel} (hs : c.state = .transit)
    (hms : c.msCount.toNat < c.msPerStep.toNat) (hsec : c.secCount = 0) : c.countersOk :=
  ⟨by simp [hs], by simp [hs], fun _ => ⟨hms, hsec⟩⟩

/-- The counters at the start of a segment's delay are in range, also when the delay is 0. -/
theorem Channel.countersOk_delayStart {c : Channel} (hs : c.state = .delay) (hms : c.msCount = 0)
    (hsec : c.secCount = 0) : c.countersOk := by
  refine Channel.countersOk_of_delay hs (hms ▸ Nat.succ_pos 999) ?_
  by_cases hz : c.secDelay c.phase = 0
  · exact .inr ⟨hz, hsec, hms⟩
  · rw [hsec]
    exact .inl (Nat.pos_of_ne_zero fun h => hz (BitVec.eq_of_toNat_eq h))

/-- The counters at the start of a ramp are in range, because the step rate is never 0. -/
theorem Channel.countersOk_rampStart {c : Channel} (hrate : c.rateOk) (hs : c.state = .transit)
    (hms : c.msCount = 0) (hsec : c.secCount = 0) : c.countersOk := by
  refine Channel.countersOk_of_transit hs ?_ hsec
  rw [hms, hrate]
  exact deriveMsPerStep_pos _ _ _

/-! One tick of a channel. The end of a segment and the two counting states each keep the chain in place and
the counters in range. -/

theorem Channel.segmentDone_chainOk {c : Channel} (h : c.chainOk) : c.segmentDone.chainOk := by
  rcases c.segmentDone_cases with ⟨_, hlen, hd⟩ | ⟨_, _, hd⟩ | ⟨_, _, hd⟩ <;> rw [hd]
  · exact ⟨rfl, hlen ▸ Nat.one_lt_two⟩
  · exact Channel.chainOk_first rfl rfl
  · exact h

/-- A segment ends with the duty cycle at its target, which the channel then holds when the chain rests. -/
theorem Channel.segmentDone_countersOk {c : Channel} (h : c.dcCur = c.target) : c.segmentDone.countersOk := by
  rcases c.segmentDone_cases with ⟨_, _, hd⟩ | ⟨_, _, hd⟩ | ⟨_, _, hd⟩ <;> rw [hd]
  · exact Channel.countersOk_delayStart rfl rfl rfl
  · exact Channel.countersOk_delayStart rfl rfl rfl
  · exact Channel.countersOk_of_steady rfl rfl rfl h

theorem Channel.ramp_chainOk {c : Channel} (h : c.chainOk) : c.ramp.chainOk := by
  rcases c.ramp_cases with ⟨_, hr⟩ | ⟨_, _, hr⟩ | ⟨_, _, hr⟩ <;> rw [hr] <;> exact h

/-- A ramp that has not arrived keeps its millisecond count below the step rate (R133). -/
theorem Channel.ramp_countersOk {c : Channel} (hs : c.state = .transit) (hrate : c.rateOk)
    (h : c.countersOk) (hne : c.ramp.dcCur ≠ c.target) : c.ramp.countersOk := by
  obtain ⟨hlt, hsec⟩ := h.2.2 hs
  rcases c.ramp_cases with ⟨_, hr⟩ | ⟨_, _, hr⟩ | ⟨_, hms, hr⟩ <;> rw [hr] at hne ⊢
  · exact absurd rfl hne
  · exact Channel.countersOk_rampStart hrate hs rfl hsec
  · have hnext : (c.msCount + 1).toNat < c.msPerStep.toNat := by bv_omega
    exact Channel.countersOk_of_transit hs hnext hsec

/-- A tick of a delay either opens the ramp or counts on below the delay (R134). -/
theorem Channel.delayTick_countersOk {c : Channel} (hs : c.state = .delay) (hrate : c.rateOk)
    (h : c.countersOk) : c.delayTick.countersOk := by
  obtain ⟨hlt, hsec⟩ := h.2.1 hs
  unfold Channel.delayTick
  rcases c.countMs_cases with ⟨hms, hc⟩ | ⟨hms, hc⟩ <;> rw [hc] <;> split
  · exact Channel.countersOk_rampStart hrate rfl rfl rfl
  · next hne =>
    have hnext : (c.secCount + 1).toNat < (c.secDelay c.phase).toNat := by
      simp only at hne
      bv_omega
    exact Channel.countersOk_of_delay hs (Nat.succ_pos 999) (.inl hnext)
  · exact Channel.countersOk_rampStart hrate rfl rfl rfl
  · next hne =>
    have hbelow : c.secCount.toNat < (c.secDelay c.phase).toNat :=
      hsec.resolve_right fun hz => hne (hz.2.1.trans hz.1.symm)
    have hnext : (c.msCount + 1).toNat < 1000 := by bv_omega
    exact Channel.countersOk_of_delay hs hnext (.inl hbelow)

theorem Channel.delayTick_chainOk {c : Channel} (h : c.chainOk) : c.delayTick.chainOk := by
  unfold Channel.delayTick
  rcases c.countMs_cases with ⟨_, hc⟩ | ⟨_, hc⟩ <;> rw [hc] <;> split <;> exact h

/-- A tick moves a channel along its chain (R133 to R137). -/
theorem Channel.tick_chainOk {c : Channel} (h : c.chainOk) : c.tick.chainOk := by
  cases hs : c.state with
  | steady => rwa [Channel.tick_steady hs]
  | transit =>
    rw [Channel.tick_transit hs]
    unfold Channel.transitTick
    split
    · exact Channel.segmentDone_chainOk (Channel.ramp_chainOk h)
    · exact Channel.ramp_chainOk h
  | delay =>
    rw [Channel.tick_delay hs]
    exact Channel.delayTick_chainOk h

theorem Channel.tick_countersOk {c : Channel} (hrate : c.rateOk) (h : c.countersOk) :
    c.tick.countersOk := by
  cases hs : c.state with
  | steady => rwa [Channel.tick_steady hs]
  | transit =>
    rw [Channel.tick_transit hs]
    unfold Channel.transitTick
    obtain ⟨-, -, -, -, -, -, -, htarget⟩ := c.ramp_frame
    split
    · next hcur => exact Channel.segmentDone_countersOk (hcur.trans htarget.symm)
    · next hne => exact Channel.ramp_countersOk hs hrate h hne
  | delay =>
    rw [Channel.tick_delay hs]
    exact Channel.delayTick_countersOk hs hrate h

/-! Each write of a channel record keeps it legal. -/

theorem Channel.tick_ok {c : Channel} (h : c.ok) : c.tick.ok := by
  obtain ⟨hchain, hrate, hcount, hover⟩ := c.ok_iff.mp h
  obtain ⟨hcfg, hov, -⟩ := c.tick_frame
  exact (Channel.ok_iff _).mpr ⟨Channel.tick_chainOk hchain, hrate.of_config hcfg,
    Channel.tick_countersOk hrate hcount, hover.of_override hov⟩

theorem Channel.trigger_ok {c : Channel} (h : c.ok) (t : Phase) : (c.trigger t).ok := by
  obtain ⟨-, hrate, -, hover⟩ := c.ok_iff.mp h
  exact (Channel.ok_iff _).mpr
    ⟨Channel.chainOk_first rfl rfl, hrate, Channel.countersOk_delayStart rfl rfl rfl, hover⟩

theorem Channel.forceTest_ok {c : Channel} (h : c.ok) (on : Bool) : (c.forceTest on).ok := by
  obtain ⟨hchain, hrate, hcount, -⟩ := c.ok_iff.mp h
  have hover : (c.forceTest on).overrideOk := by cases on <;> simp [overrideOk, forceTest, testValue]
  exact (Channel.ok_iff _).mpr ⟨hchain, hrate, hcount, hover⟩

theorem Channel.releaseTest_overrideOk (c : Channel) : c.releaseTest.overrideOk :=
  ⟨fun h => absurd h Bool.false_ne_true, fun _ => rfl⟩

theorem Channel.releaseTest_ok {c : Channel} (h : c.ok) : c.releaseTest.ok := by
  obtain ⟨hchain, hrate, hcount, -⟩ := c.ok_iff.mp h
  exact (Channel.ok_iff _).mpr ⟨hchain, hrate, hcount, c.releaseTest_overrideOk⟩

/-- SHUTDOWN off writes the duty cycle alone, and a STEADY channel's with the target it holds anyway. -/
theorem Channel.restoreTarget_ok {c : Channel} (h : c.ok) : c.restoreTarget.ok := by
  obtain ⟨hchain, hrate, ⟨hsteady, hdelay, htransit⟩, hover⟩ := c.ok_iff.mp h
  exact (Channel.ok_iff _).mpr ⟨hchain, hrate,
    ⟨fun hs => ⟨(hsteady hs).1, (hsteady hs).2.1, rfl⟩, hdelay, htransit⟩, hover⟩

/-- LOAD leaves a legal record whatever the store holds, and whatever the record was but for its test
override (R171). -/
theorem loadChannel_ok (p : Params) (m : Memory) (t : Phase) (i : ChanIdx) {c : Channel}
    (h : c.overrideOk) : (loadChannel p m t i c).ok := by
  have hcur : (loadChannel p m t i c).dcCur = (loadChannel p m t i c).target := by cases t <;> rfl
  exact (Channel.ok_iff _).mpr
    ⟨Channel.chainOk_first rfl rfl, rfl, Channel.countersOk_of_steady rfl rfl rfl hcur, h⟩

theorem LaneWrite.keeps_ok {s : State} {i : ChanIdx} {j : Instr} {c : Channel} (h : LaneWrite s i j c)
    (hok : (s.chan i).ok) : c.ok := by
  obtain ⟨-, -, -, hover⟩ := (Channel.ok_iff _).mp hok
  cases h with
  | keep => exact hok
  | tick => exact Channel.tick_ok hok
  | nightsw on => exact Channel.trigger_ok hok _
  | dnin lvl => exact Channel.trigger_ok hok _
  | test on => exact Channel.forceTest_ok hok on
  | testend on => exact Channel.releaseTest_ok hok
  | restore => exact Channel.restoreTarget_ok hok
  | load => exact loadChannel_ok _ _ _ _ hover
  | savedef => exact loadChannel_ok _ _ _ _ hover
  | reset => exact loadChannel_ok _ _ _ _ (Channel.releaseTest_overrideOk _)

/-! ## The invariant: the global registers, the store and the step -/

/-- A trigger or a LOAD starts a chain for the phase last broadcast, and nothing else starts one (R39, R139,
R171). -/
theorem laneAfter_trig (j : Instr) {s : State} {i : ChanIdx} (h : (s.chan i).trig = s.g.dayNight) :
    (laneAfter j s i).trig = (globalsAfter j s).dayNight := by
  cases j with
  | eventNightsw | load | savedef | reset => rfl
  | tick =>
    obtain ⟨-, -, htick⟩ := (s.chan i).tick_frame
    simp only [laneAfter, globalsAfter, Globals.tickAlarm_eq]
    split
    · exact h
    · exact htick.trans h
  | dnin lvl =>
    simp only [laneAfter, globalsAfter]
    split
    · exact h
    · rfl
  | supv raw => rwa [globalsAfter, State.supervise_g]
  | eventShutdown on => cases on <;> exact h
  | eventTest1 | eventTest2 | eventTest3 | eventTest4 | eventTest5 | eventTest6 | eventTest7 | eventTest8
  | eventTest9 | eventTest10 =>
    simp only [laneAfter]
    split <;> exact h
  | _ => exact h

/-- A supervisory pass leaves flags that agree with its sample, and the timer loaded with at most the period
(R192, R307). -/
theorem Globals.ok_supervise {s : State} (h : s.g.ok s.params) (raw : Half) :
    (s.supervise raw).g.ok s.params := by
  obtain ⟨-, -, hcnt⟩ := h
  rw [State.supervise_g]
  refine ⟨rfl, rfl, ?_⟩
  show BitVec.toNat (if _ then _ else _) ≤ _
  split
  · exact Nat.le_refl _
  · exact hcnt

theorem Globals.tickAlarm_ok {g : Globals} {p : Params} (h : g.ok p) : g.tickAlarm.ok p := by
  obtain ⟨hover, hactive, hcnt⟩ := h
  have hdown : g.tickAlarm.alarmCnt.toNat ≤ p.alarmPeriodMs.toNat := by
    rw [Globals.tickAlarm_toNat]
    omega
  rw [Globals.tickAlarm_eq] at hdown ⊢
  exact ⟨hover, hactive, hdown⟩

theorem globalsAfter_ok (j : Instr) {s : State} (h : s.g.ok s.params) :
    (globalsAfter j s).ok s.params := by
  cases j with
  | tick => exact Globals.tickAlarm_ok h
  | supv raw => exact Globals.ok_supervise h raw
  | reset => exact Globals.afterReset_ok _
  | dnin lvl =>
    simp only [globalsAfter]
    split <;> exact h
  | _ => exact h

theorem storeAfter_wf (j : Instr) {s : State} (h : s.cfg.wf = true) : (storeAfter j s).wf = true := by
  cases j with
  | cfgwr off data => exact wf_writeMapped h off data
  | savedef => exact wf_saveAllDefaults h _
  | _ => exact h

/-- Every command keeps the invariant, register file by register file. -/
theorem exec_keeps_inv {j : Instr} {s t : State} (h : s.inv) (ht : exec j s = .next t) : t.inv := by
  obtain ⟨hcfg, hparams, hg, hchan⟩ := h
  obtain ⟨lane, globals, store, -, params, -⟩ := exec_next ht
  refine ⟨?_, ?_, ?_, fun i => ⟨(laneWrite_of_exec ht i).keeps_ok (hchan i).1, ?_⟩⟩
  · rw [store]
    exact storeAfter_wf j hcfg
  · rwa [params]
  · rw [globals, params]
    exact globalsAfter_ok j hg
  · rw [lane, globals]
    exact laneAfter_trig j (hchan i).2

/-- Settles O57: taking a word off the port or idling touches no register, and the command keeps the
invariant. -/
theorem stepKeepsLegalState : Obligations.StepKeepsLegalState := by
  intro s t hinv h
  cases hport : s.port with
  | nil =>
    rw [step_nil hport] at h
    injection h with h
    subst h
    exact hinv
  | cons w rest =>
    rw [step_cons hport] at h
    have haccept : (s.accept rest).inv := hinv
    exact exec_keeps_inv haccept h

end Sys2Proof.Machine

namespace Sys2Proof

/-! ## The status registers -/

/-- A phase's bit is set at night (R19). -/
theorem Phase.bit_getElem_zero (p : Phase) : p.bit[0] = decide (p = .night) := by
  cases p <;> rfl

namespace Machine

/-- GSTAT field by field (R44). -/
theorem State.gstat_fields (s : State) :
    s.gstat.getLsbD 0 = decide (s.g.dayNight = .night) ∧ s.gstat.getLsbD 1 = decide (s.g.dnInput = .night) ∧
    s.gstat.getLsbD 2 = s.g.shutdown ∧ s.gstat.getLsbD 3 = s.g.overAmp ∧
    s.gstat.getLsbD 4 = s.g.underVolt ∧ s.gstat.getLsbD 5 = s.g.alarmActive ∧
    s.gstat.getLsbD 6 = s.buzzer ∧ s.gstat.extractLsb' 7 9 = 0 ∧ s.gstat.extractLsb' 16 16 = s.g.mA := by
  simp [State.gstat, getElem_place, Phase.bit_getElem_zero, BitVec.extractLsb'_or, extract_place_same,
    extract_place_apart]

/-- ASTAT field by field (R50). -/
theorem State.astat_fields (s : State) :
    s.astat.extractLsb' 0 16 = s.g.alarmCnt ∧ s.astat.extractLsb' 16 16 = 0 := by
  simp [State.astat, extract_place_same, extract_place_apart]

/-- CHSTAT field by field (R45). -/
theorem State.chstat_fields (s : State) (i : ChanIdx) :
    (s.chstat i).extractLsb' 0 2 = (s.chan i).state.code ∧
    (s.chstat i).getLsbD 2 = decide ((s.chan i).phase = .night) ∧
    (s.chstat i).getLsbD 3 = decide ((s.chan i).trig = .night) ∧
    (s.chstat i).getLsbD 4 = (s.chan i).seqPos ∧ (s.chstat i).getLsbD 5 = (s.chan i).testEn ∧
    (s.chstat i).extractLsb' 6 2 = 0 ∧ (s.chstat i).extractLsb' 8 8 = (s.chan i).dcCur ∧
    (s.chstat i).extractLsb' 16 8 = (s.chan i).testVal ∧ (s.chstat i).extractLsb' 24 8 = s.duty i := by
  simp [State.chstat, getElem_place, Phase.bit_getElem_zero, BitVec.extractLsb'_or, extract_place_same,
    extract_place_apart]

/-- CHTIME field by field (R46). -/
theorem State.chtime_fields (s : State) (i : ChanIdx) :
    (s.chtime i).extractLsb' 0 16 = (s.chan i).msCount ∧
    (s.chtime i).extractLsb' 16 8 = (s.chan i).secCount ∧ (s.chtime i).extractLsb' 24 8 = 0 := by
  simp [State.chtime, BitVec.extractLsb'_or, extract_place_same, extract_place_apart]

/-- CHCFG field by field (R47). -/
theorem State.chcfg_fields (s : State) (i : ChanIdx) :
    (s.chcfg i).extractLsb' 0 8 = (s.chan i).dc0 ∧ (s.chcfg i).extractLsb' 8 8 = (s.chan i).dc1 ∧
    (s.chcfg i).extractLsb' 16 8 = (s.chan i).secTrans ∧
    (s.chcfg i).extractLsb' 24 3 = (s.chan i).mode.code ∧ (s.chcfg i).extractLsb' 27 5 = 0 := by
  simp [State.chcfg, BitVec.extractLsb'_or, extract_place_same, extract_place_apart]

/-- CHCFG2 field by field (R48). -/
theorem State.chcfg2_fields (s : State) (i : ChanIdx) :
    (s.chcfg2 i).extractLsb' 0 8 = (s.chan i).secDelay0 ∧
    (s.chcfg2 i).extractLsb' 8 8 = (s.chan i).secDelay1 ∧
    (s.chcfg2 i).extractLsb' 16 16 = (s.chan i).msPerStep := by
  simp [State.chcfg2, BitVec.extractLsb'_or, extract_place_same, extract_place_apart]

/-- An idle alarm timer keeps the buzzer off (R200). -/
theorem State.buzzer_of_idle {s : State} (h : s.g.alarmCnt = 0) : s.buzzer = false := by
  simp [State.buzzer, h]

/-- The registers of R49 have every bit of GSTAT clear (R44). -/
theorem State.gstat_resetAll (s : State) : s.resetAll.gstat = 0 := by
  rw [State.gstat, State.buzzer_of_idle rfl, State.resetAll_g]
  decide

theorem State.astat_resetAll (s : State) : s.resetAll.astat = 0 := rfl

/-! ## The selectors of STATRD -/

theorem chanOfSel_add {base : Nat} {sel : Byte} {i : ChanIdx} (h : sel.toNat = base + i.val) :
    chanOfSel base sel = some i := by
  have hin : base ≤ sel.toNat ∧ sel.toNat - base < 10 := by omega
  rw [chanOfSel, dif_pos hin]
  exact congrArg some (Fin.ext (by show sel.toNat - base = i.val; omega))

theorem chanOfSel_none {base : Nat} {sel : Byte} (h : ∀ i < 10, sel.toNat ≠ base + i) :
    chanOfSel base sel = none := by
  refine dif_neg fun hin => h (sel.toNat - base) hin.2 ?_
  omega

/-- A selector from 2 up goes through the channel ranges in turn (R253). -/
theorem State.statusWord_chan (s : State) {sel : Byte} (h : 2 ≤ sel.toNat) :
    s.statusWord sel =
      ((chanOfSel 0x10 sel).map s.chstat <|> (chanOfSel 0x20 sel).map s.chtime <|>
        (chanOfSel 0x30 sel).map s.chcfg <|> (chanOfSel 0x40 sel).map s.chcfg2).getD 0 := by
  have h0 : sel ≠ 0x00 := by rintro rfl; exact absurd h (by decide)
  have h1 : sel ≠ 0x01 := by rintro rfl; exact absurd h (by decide)
  rw [State.statusWord, if_neg h0, if_neg h1]
  split <;> simp [*]

/-- The selector of a channel register as a number: no range reaches past 8 bits. -/
theorem selector_toNat {base : Nat} (hb : base ≤ 0x40) (i : ChanIdx) :
    (BitVec.ofNat 8 (base + i.val)).toNat = base + i.val :=
  Nat.mod_eq_of_lt (by omega)

theorem State.statusWord_chstat (s : State) (i : ChanIdx) :
    s.statusWord (BitVec.ofNat 8 (0x10 + i.val)) = s.chstat i := by
  have hsel := selector_toNat (base := 0x10) (by decide) i
  rw [State.statusWord_chan s (by omega), chanOfSel_add hsel]
  rfl

theorem State.statusWord_chtime (s : State) (i : ChanIdx) :
    s.statusWord (BitVec.ofNat 8 (0x20 + i.val)) = s.chtime i := by
  have hsel := selector_toNat (base := 0x20) (by decide) i
  rw [State.statusWord_chan s (by omega), chanOfSel_none (base := 0x10) (by omega), chanOfSel_add hsel]
  rfl

theorem State.statusWord_chcfg (s : State) (i : ChanIdx) :
    s.statusWord (BitVec.ofNat 8 (0x30 + i.val)) = s.chcfg i := by
  have hsel := selector_toNat (base := 0x30) (by decide) i
  rw [State.statusWord_chan s (by omega), chanOfSel_none (base := 0x10) (by omega),
    chanOfSel_none (base := 0x20) (by omega), chanOfSel_add hsel]
  rfl

theorem State.statusWord_chcfg2 (s : State) (i : ChanIdx) :
    s.statusWord (BitVec.ofNat 8 (0x40 + i.val)) = s.chcfg2 i := by
  have hsel := selector_toNat (base := 0x40) (by decide) i
  rw [State.statusWord_chan s (by omega), chanOfSel_none (base := 0x10) (by omega),
    chanOfSel_none (base := 0x20) (by omega), chanOfSel_none (base := 0x30) (by omega), chanOfSel_add hsel]
  rfl

/-- STATRD answers the same state with the register its selector names (R253). -/
theorem exec_statrd {s : State} {sel : Byte} {v : Word} (h : s.statusWord sel = v) :
    exec (.statrd sel) s = .next { s with out := { s.out with response := some v } } := by
  subst h
  rfl

/-- The row of STATRD (R92, R100). -/
theorem rowDecodes_statrd : RowDecodes 0xF0000000 0xB0000000 (fun w => .statrd (w.extractLsb' 0 8)) := by
  intro w h
  have hop : opField w = 0xB := opField_of_mask h
  rw [decodeWord, hop]
  rfl

/-- Settles O44. -/
theorem statrdGlobalRegisters : Obligations.StatrdGlobalRegisters := by
  refine ⟨rowDecodes_statrd, fun s => ?_, fun s => ?_⟩
  · exact ⟨s.resetAll, _, _, rfl, exec_statrd s.gstat_resetAll, exec_statrd s.astat_resetAll, rfl, rfl⟩
  · obtain ⟨dayNight, dnInput, shutdown, overAmp, underVolt, alarmActive, buzzer, zeros, mA⟩ := s.gstat_fields
    obtain ⟨alarmCnt, zeros'⟩ := s.astat_fields
    exact ⟨s.gstat, s.astat, exec_statrd rfl, dayNight, dnInput, shutdown, overAmp, underVolt, alarmActive,
      buzzer, zeros, mA, exec_statrd rfl, alarmCnt, zeros'⟩

/-- Settles O45: the model's codes are those of R104 and R105, and the other fields are read where they were
placed. -/
theorem statrdChannelRegisters : Obligations.StatrdChannelRegisters := by
  intro s i
  obtain ⟨state, phase, trig, seqPos, testEn, zeros, dcCur, testVal, duty⟩ := s.chstat_fields i
  obtain ⟨dc0, dc1, secTrans, mode, zeros'⟩ := s.chcfg_fields i
  refine ⟨s.chstat i, s.chtime i, s.chcfg i, s.chcfg2 i, exec_statrd (s.statusWord_chstat i), ?_, phase, trig,
    seqPos, testEn, zeros, dcCur, testVal, duty, exec_statrd (s.statusWord_chtime i), ?_⟩
  · rw [state]
    cases (s.chan i).state <;> rfl
  · obtain ⟨msCount, secCount, zeros''⟩ := s.chtime_fields i
    refine ⟨msCount, secCount, zeros'', exec_statrd (s.statusWord_chcfg i), dc0, dc1, secTrans, ?_, zeros',
      exec_statrd (s.statusWord_chcfg2 i), s.chcfg2_fields i⟩
    rw [mode]
    cases (s.chan i).mode <;> rfl

/-- Settles O46: no channel range holds the selector. -/
theorem statrdUnlistedSelectorsReadZero : Obligations.StatrdUnlistedSelectorsReadZero := by
  intro sel s h2 hout
  simp only [imp_and, forall_and] at hout
  obtain ⟨h10, h20, h30, h40⟩ := hout
  refine exec_statrd ?_
  rw [State.statusWord_chan s h2, chanOfSel_none h10, chanOfSel_none h20, chanOfSel_none h30,
    chanOfSel_none h40]
  rfl

end Machine
end Sys2Proof

/-! PROOFS of the statements about the configuration store: where the address decoder places a parameter, what
the store commands read and write, who writes the store, and what RESET makes of the store it keeps. -/

namespace Sys2Proof

/-! ## The address decoder -/

/-- The kind codes, read as R106 lists them. -/
theorem ParamKind.ofCode_eq (k : BitVec 2) :
    ParamKind.ofCode k = if k = 0 then .trans else if k = 1 then .delay else if k = 2 then .dc else .mode := by
  revert k
  decide

/-- The phase codes, read as R19 lists them. -/
theorem Phase.ofBool_eq (b : Bool) : Phase.ofBool b = if b then .night else .day := by
  cases b <;> rfl

namespace Machine

/-- Every group has a kind and a phase that select it (R106, R120). -/
theorem exists_groupIndex_eq {group : Nat} (h : group < 6) :
    ∃ (k : ParamKind) (p : Phase), groupIndex k p = group := by
  interval_cases group
  · exact ⟨.trans, .day, rfl⟩
  · exact ⟨.delay, .day, rfl⟩
  · exact ⟨.delay, .night, rfl⟩
  · exact ⟨.dc, .day, rfl⟩
  · exact ⟨.dc, .night, rfl⟩
  · exact ⟨.mode, .day, rfl⟩

/-- On the ten channels the offset is a pair of decimal digits, the group and the channel. -/
theorem cfgAddr_inj {k k' : ParamKind} {c c' : BitVec 4} {p p' : Phase} (hc : c.toNat < 10) (hc' : c'.toNat < 10)
    (h : cfgAddr k c p = cfgAddr k' c' p') : groupIndex k p = groupIndex k' p' ∧ c = c' := by
  have hoff := congrArg BitVec.toNat h
  rw [cfgAddr_toNat, cfgAddr_toNat] at hoff
  exact ⟨by omega, BitVec.eq_of_toNat_eq (by omega)⟩

theorem cfgAddr_lt (k : ParamKind) {c : BitVec 4} (p : Phase) (hc : c.toNat < 10) :
    (cfgAddr k c p).toNat < 60 := by
  have hg := groupIndex_le k p
  rw [cfgAddr_toNat]
  omega

/-- The digits of an offset of the store name its parameter. -/
theorem exists_cfgAddr_eq {o : Nat} (h : o < 60) :
    ∃ (k : ParamKind) (c : BitVec 4) (p : Phase), c.toNat < 10 ∧ (cfgAddr k c p).toNat = o := by
  obtain ⟨k, p, hg⟩ := exists_groupIndex_eq (group := o / 10) (by omega)
  have hc : (BitVec.ofNat 4 (o % 10)).toNat = o % 10 := Nat.mod_eq_of_lt (by omega)
  refine ⟨k, BitVec.ofNat 4 (o % 10), p, by omega, ?_⟩
  rw [cfgAddr_toNat, hg, hc]
  omega

/-- Settles O13: the two digits of an offset are the group and the channel. -/
theorem addressMapIsOneToOneOntoStore : Obligations.AddressMapIsOneToOneOntoStore :=
  ⟨fun _ _ _ _ _ _ hc hc' h => cfgAddr_inj hc hc' h, fun k _ p hc => cfgAddr_lt k p hc,
    fun _ h => exists_cfgAddr_eq h⟩

/-! ## The store commands -/

@[simp] theorem zext32_toNat (b : Byte) : (zext32 b).toNat = b.toNat := by
  have h := b.isLt
  rw [zext32, BitVec.toNat_setWidth]
  exact Nat.mod_eq_of_lt (by omega)

/-- What CFGRD's read sees after CFGWR's write of a mapped offset (R176, R177). -/
theorem readMapped_writeMapped (m : Memory) {off : Byte} (h : off.toNat < 60) (data off' : Byte) :
    readMapped (writeMapped m off data) off' = if off' = off then data else readMapped m off' := by
  by_cases heq : off' = off
  · subst heq
    simp [readMapped, read_writeMapped, h]
  · have hne : off'.toNat ≠ off.toNat := fun hn => heq (BitVec.eq_of_toNat_eq hn)
    simp [readMapped, read_writeMapped, heq, hne]

/-- Settles O18. -/
theorem storeReadsSeeEarlierWrites : Obligations.StoreReadsSeeEarlierWrites := by
  intro off data off' s hoff
  have hread := readMapped_writeMapped s.cfg hoff data off'
  refine ⟨s.setCfg (writeMapped s.cfg off data), _, _, rfl, rfl, rfl, fun heq => ?_, fun hne => ?_⟩
  · rw [if_pos heq] at hread
    exact ⟨zext32 data, by simp [hread], zext32_toNat data⟩
  · rw [if_neg hne] at hread
    simp [hread]

/-- The row of CFGADR (R92, R99), with the codes of R19 and R106. -/
theorem rowDecodes_cfgadr :
    RowDecodes 0xF0000000 0x70000000 (fun w =>
      .cfgadr
        (if w.extractLsb' 8 2 = 0 then .trans else if w.extractLsb' 8 2 = 1 then .delay
          else if w.extractLsb' 8 2 = 2 then .dc else .mode)
        (w.extractLsb' 4 4) (if w.getLsbD 0 then .night else .day)) := by
  intro w h
  have hop : opField w = 0x7 := opField_of_mask h
  rw [decodeWord, hop]
  show Instr.cfgadr (ParamKind.ofCode (kindField w)) (chnField w) (Phase.ofBool (phField w)) = _
  rw [ParamKind.ofCode_eq, Phase.ofBool_eq]
  rfl

/-- Settles O14: each kind and phase has its group's tens (R72, R120). -/
theorem cfgadrRespondsStoreOffset : Obligations.CfgadrRespondsStoreOffset := by
  refine ⟨rowDecodes_cfgadr, fun k c p s _ => ⟨zext32 (cfgAddr k c p), rfl, ?_⟩⟩
  rw [zext32_toNat, cfgAddr_toNat, Nat.add_comm]
  cases k <;> cases p <;> rfl

/-! ## Who writes the store -/

/-- A command other than CFGWR and SAVEDEF keeps the store (R81, R86). -/
theorem storeAfter_eq_or (j : Instr) (s : State) :
    storeAfter j s = s.cfg ∨ (∃ off data, j = .cfgwr off data) ∨ j = .savedef := by
  cases j with
  | cfgwr off data => exact .inr (.inl ⟨off, data, rfl⟩)
  | savedef => exact .inr (.inr rfl)
  | _ => exact .inl rfl

/-- Settles O54. -/
theorem storeWrittenOnlyByCfgwrAndSavedef : Obligations.StoreWrittenOnlyByCfgwrAndSavedef := by
  intro j s t h hne
  obtain ⟨-, -, hcfg, -⟩ := exec_next h
  rw [hcfg] at hne
  exact (storeAfter_eq_or j s).resolve_left hne

/-! ## RESET and power-up -/

/-- RESET forgets the registers: it leaves what power-up makes of the store and the parameters, with the
waiting words kept (R290). -/
theorem State.resetAll_eq_powerUp {s : State} (h : s.out = { events := [], response := none }) :
    s.resetAll = { State.powerUp s.cfg s.params with port := s.port } := by
  refine State.ext_of_chan (fun i => ?_) rfl rfl rfl ?_ rfl
  · calc s.resetAll.chan i
        = loadChannel s.params s.cfg .day i (s.chan i).releaseTest := State.resetAll_chan s i
      _ = loadChannel s.params s.cfg .day i Channel.afterReset := rfl
      _ = (State.powerUp s.cfg s.params).chan i := (State.powerUp_chan s.cfg s.params i).symm
  · rw [State.resetAll_out, h]
    rfl

/-- Settles O48. -/
theorem resetEqualsPowerUp : Obligations.ResetEqualsPowerUp :=
  ⟨fun _ hout => congrArg Host.Outcome.next (State.resetAll_eq_powerUp hout),
    fun m p => ⟨State.powerUp_cfg m p, State.powerUp_params m p, State.powerUp_out m p⟩,
    State.reset_eq_powerUp⟩

end Machine
end Sys2Proof

/-! PROOFS of the statements about the encoding: the round trips of the decoder and the encoder and what follows
from them, then the decoding of the Mode byte at LOAD, and which commands respond. -/

namespace Sys2Proof

/-! ## The fields of a word, placed back -/

/-- A field of a word, put back where it was read, is the word with every other bit cleared (R109). -/
theorem place_extractLsb' (w : Word) (lo n : Nat) :
    place lo (w.extractLsb' lo n) = w &&& place lo (BitVec.allOnes n) := by
  ext i hi
  rw [BitVec.getElem_and, getElem_place, getElem_place, BitVec.getLsbD_extractLsb', BitVec.getLsbD_allOnes,
    ← BitVec.getLsbD_eq_getElem]
  by_cases hlo : lo ≤ i
  · simp [hlo, Nat.add_sub_cancel' hlo, Bool.and_comm]
  · simp [hlo]

theorem eq_ofNat_of_toNat_eq {n k : Nat} {v : BitVec n} (h : v.toNat = k) : v = BitVec.ofNat n k := by
  rw [← h, BitVec.ofNat_toNat, BitVec.setWidth_eq]

/-- A one-bit field, read as a Boolean. -/
theorem ofBool_getLsbD (w : Word) (k : Nat) : BitVec.ofBool (w.getLsbD k) = w.extractLsb' k 1 := by
  ext i hi
  obtain rfl : i = 0 := by omega
  simp [BitVec.getElem_extractLsb']

/-! Each format, filled with the fields of a word of its operation, is that word under the bits the format
names (R93 to R100). -/

section Formats
variable {w : Word}

theorem formatN_fields {op : BitVec 4} (h : opField w = op) : formatN op = w &&& 0xF0000000#32 := by
  rw [← h]
  exact place_extractLsb' w 28 4

theorem formatE_fields (h : opField w = 0x2#4) : formatE (onField w) (enField w) = w &&& 0xF001FFFF#32 := by
  rw [formatE, ← h]
  simp only [opField, onField, enField, ofBool_getLsbD, place_extractLsb', ← BitVec.and_or_distrib_left]
  rfl

theorem formatL_fields {op : BitVec 4} (h : opField w = op) :
    formatL op (BitVec.ofBool (lvlField w)) = w &&& 0xF0000001#32 := by
  rw [formatL, ← h]
  simp only [opField, lvlField, ofBool_getLsbD, place_extractLsb', ← BitVec.and_or_distrib_left]
  rfl

theorem formatA_fields (h : opField w = 0x4#4) : formatA (rawField w) = w &&& 0xF000FFFF#32 := by
  rw [formatA, ← h]
  simp only [opField, rawField, place_extractLsb', ← BitVec.and_or_distrib_left]
  rfl

theorem formatR_fields (h : opField w = 0x5#4) : formatR (offField w) = w &&& 0xF0FF0000#32 := by
  rw [formatR, ← h]
  simp only [opField, offField, place_extractLsb', ← BitVec.and_or_distrib_left]
  rfl

theorem formatW_fields (h : opField w = 0x6#4) :
    formatW (offField w) (dataField w) = w &&& 0xF0FF00FF#32 := by
  rw [formatW, ← h]
  simp only [opField, offField, dataField, place_extractLsb', ← BitVec.and_or_distrib_left]
  rfl

theorem formatM_fields (h : opField w = 0x7#4) :
    formatM (kindField w) (chnField w) (BitVec.ofBool (phField w)) = w &&& 0xF00003F1#32 := by
  rw [formatM, ← h]
  simp only [opField, kindField, chnField, phField, ofBool_getLsbD, place_extractLsb',
    ← BitVec.and_or_distrib_left]
  rfl

theorem formatS_fields (h : opField w = 0xB#4) : formatS (selField w) = w &&& 0xF00000FF#32 := by
  rw [formatS, ← h]
  simp only [opField, selField, place_extractLsb', ← BitVec.and_or_distrib_left]
  rfl

end Formats

/-! ## The operation map -/

/-- The row of the operation map (R92) that a word takes: one constructor per operation code, with the fields of
the operation's format. -/
inductive DecodesTo (w : Word) : Instr → Prop where
  | nop (h : opField w = 0x0#4) : DecodesTo w .nop
  | tick (h : opField w = 0x1#4) : DecodesTo w .tick
  | event (h : opField w = 0x2#4) : DecodesTo w (decodeEvent (onField w) (enField w))
  | dnin (h : opField w = 0x3#4) : DecodesTo w (.dnin (Phase.ofBool (lvlField w)))
  | supv (h : opField w = 0x4#4) : DecodesTo w (.supv (rawField w))
  | cfgrd (h : opField w = 0x5#4) : DecodesTo w (.cfgrd (offField w))
  | cfgwr (h : opField w = 0x6#4) : DecodesTo w (.cfgwr (offField w) (dataField w))
  | cfgadr (h : opField w = 0x7#4) :
      DecodesTo w (.cfgadr (ParamKind.ofCode (kindField w)) (chnField w) (Phase.ofBool (phField w)))
  | load (h : opField w = 0x8#4) : DecodesTo w .load
  | savedef (h : opField w = 0x9#4) : DecodesTo w .savedef
  | emittest (h : opField w = 0xA#4) : DecodesTo w (.emittest (lvlField w))
  | statrd (h : opField w = 0xB#4) : DecodesTo w (.statrd (selField w))
  | reservedC (h : opField w = 0xC#4) : DecodesTo w .reservedC
  | reservedD (h : opField w = 0xD#4) : DecodesTo w .reservedD
  | reservedE (h : opField w = 0xE#4) : DecodesTo w .reservedE
  | reset (h : opField w = 0xF#4) : DecodesTo w .reset

/-- The decoder follows the operation map on every word (R107, R108). -/
theorem decodesTo_decodeWord (w : Word) : DecodesTo w (decodeWord w) := by
  have hlt := (opField w).isLt
  unfold decodeWord
  split
  case h_1 h => exact .nop (eq_ofNat_of_toNat_eq h)
  case h_2 h => exact .tick (eq_ofNat_of_toNat_eq h)
  case h_3 h => exact .event (eq_ofNat_of_toNat_eq h)
  case h_4 h => exact .dnin (eq_ofNat_of_toNat_eq h)
  case h_5 h => exact .supv (eq_ofNat_of_toNat_eq h)
  case h_6 h => exact .cfgrd (eq_ofNat_of_toNat_eq h)
  case h_7 h => exact .cfgwr (eq_ofNat_of_toNat_eq h)
  case h_8 h => exact .cfgadr (eq_ofNat_of_toNat_eq h)
  case h_9 h => exact .load (eq_ofNat_of_toNat_eq h)
  case h_10 h => exact .savedef (eq_ofNat_of_toNat_eq h)
  case h_11 h => exact .emittest (eq_ofNat_of_toNat_eq h)
  case h_12 h => exact .statrd (eq_ofNat_of_toNat_eq h)
  case h_13 h => exact .reservedC (eq_ofNat_of_toNat_eq h)
  case h_14 h => exact .reservedD (eq_ofNat_of_toNat_eq h)
  case h_15 h => exact .reservedE (eq_ofNat_of_toNat_eq h)
  case h_16 =>
    simp only [imp_false] at *
    exact .reset (eq_ofNat_of_toNat_eq (k := 15) (by omega))

/-! ## The two round trips -/

/-- An EVENT instruction keeps its event number in its word, whichever row the number selects (R94, R103). -/
theorem encode_decodeEvent (on : Bool) (en : Half) : encode (decodeEvent on en) = formatE on en := by
  unfold decodeEvent
  split
  case h_14 => rfl
  all_goals exact congrArg (formatE on) (eq_ofNat_of_toNat_eq ‹_›).symm

theorem decodeWord_wf (w : Word) : (decodeWord w).wf = true := by
  have h := decodesTo_decodeWord w
  generalize decodeWord w = i at h
  cases h with
  | event => exact decodeEvent_wf _ _
  | _ => rfl

/-- The word of a decoded instruction, operation by operation: its fields were read where the encoder places
them. -/
theorem DecodesTo.encode_eq {w : Word} {i : Instr} (h : DecodesTo w i) :
    encode i = w &&& namedBits (opField w) := by
  cases h with
  | nop h | tick h | load h | savedef h | reservedC h | reservedD h | reservedE h | reset h =>
    rw [h]
    exact formatN_fields h
  | event h =>
    rw [h, encode_decodeEvent]
    exact formatE_fields h
  | dnin h =>
    rw [h, encode, Phase.bit_ofBool]
    exact formatL_fields h
  | supv h =>
    rw [h]
    exact formatA_fields h
  | cfgrd h =>
    rw [h]
    exact formatR_fields h
  | cfgwr h =>
    rw [h]
    exact formatW_fields h
  | cfgadr h =>
    rw [h, encode, ParamKind.code_ofCode, Phase.bit_ofBool]
    exact formatM_fields h
  | emittest h =>
    rw [h]
    exact formatL_fields h
  | statrd h =>
    rw [h]
    exact formatS_fields h

/-- Settles O1, by `decodeWord_encode`; the rest of the list is handed back as it is. -/
theorem decodeOfEncodeIsIdentity : Obligations.DecodeOfEncodeIsIdentity := by
  intro i rest hwf
  have hdec : decodeWord (encode i) = i := decodeWord_encode hwf
  exact ⟨hdec, by rw [decode, hdec]⟩

/-- Settles O2. -/
theorem encodeOfDecodeKeepsNamedBits : Obligations.EncodeOfDecodeKeepsNamedBits :=
  fun w => (decodesTo_decodeWord w).encode_eq

/-! ## What the round trips give -/

/-- An EVENT word under the mask of the named event numbers keeps its operation code and its number (R103). -/
theorem and_eventMask {w : Word} (h : opField w = 0x2#4) {n : Nat} (hen : (enField w).toNat = n) {m : Word}
    (hm : 0x20000000 ||| (BitVec.ofNat 16 n).setWidth 32 = m) : w &&& 0xF000FFFF = m := by
  calc w &&& 0xF000FFFF
      = w &&& 0xF001FFFF#32 &&& 0xF000FFFF := by rw [BitVec.and_assoc]; rfl
    _ = formatE (onField w) (BitVec.ofNat 16 n) &&& 0xF000FFFF := by rw [← formatE_fields h, eq_ofNat_of_toNat_eq hen]
    _ = m := Laws.TableRow.of_event (onField w) _ hm

/-- A word lies in the row of the instruction it decodes to: for the named event numbers the row's mask covers
the event number too. -/
theorem DecodesTo.tableRow {w : Word} {i : Instr} (h : DecodesTo w i) : w &&& tableMask i = tableMatch i := by
  cases h with
  | event h =>
    unfold decodeEvent
    split
    case h_14 => exact Laws.TableRow.of_opField h rfl
    all_goals exact and_eventMask h ‹_› rfl
  | nop h | tick h | dnin h | supv h | cfgrd h | cfgwr h | cfgadr h | load h | savedef h | emittest h | statrd h
  | reservedC h | reservedD h | reservedE h | reset h => exact Laws.TableRow.of_opField h rfl

/-- Settles O3. -/
theorem decodeLandsInItsTableRow : Obligations.DecodeLandsInItsTableRow :=
  fun w => ⟨decodeWord_wf w, (decodesTo_decodeWord w).tableRow⟩

/-- The decoder does not see the bits that no field names (R91): the two words encode back to the same word. -/
theorem decodeWord_eq_of_namedBits {w w' : Word} (hop : opField w = opField w')
    (h : w &&& namedBits (opField w) = w' &&& namedBits (opField w)) : decodeWord w = decodeWord w' := by
  have henc : encode (decodeWord w) = encode (decodeWord w') := by
    rw [(decodesTo_decodeWord w).encode_eq, (decodesTo_decodeWord w').encode_eq, ← hop, h]
  calc decodeWord w
      = decodeWord (encode (decodeWord w)) := (decodeWord_encode (decodeWord_wf w)).symm
    _ = decodeWord (encode (decodeWord w')) := by rw [henc]
    _ = decodeWord w' := decodeWord_encode (decodeWord_wf w')

/-- Settles O5. -/
theorem specWordsDecode : Obligations.SpecWordsDecode :=
  ⟨rfl, rfl, rfl, rfl, rfl, rfl, rfl, rfl, rfl, rfl, rfl, rfl⟩

/-! ## The Mode byte -/

/-- A byte past the last mode code selects the fallback (R173). -/
theorem clampMode_fallback (fallback : Mode) {b : Byte} (h : 6 ≤ b.toNat) : clampMode fallback b = fallback := by
  unfold clampMode
  split
  case h_7 => rfl
  all_goals omega

namespace Machine

/-- Settles O4. -/
theorem unnamedBitsHaveNoEffect : Obligations.UnnamedBitsHaveNoEffect := by
  intro s w w' rest hop h
  rw [step_cons (w := w) (rest := rest) rfl, step_cons (w := w') (rest := rest) rfl,
    decodeWord_eq_of_namedBits hop h]
  rfl

/-- LOAD reads the mode from the channel's byte of the Mode group (R72, R171). -/
theorem State.load_mode (s : State) (i : ChanIdx) :
    (s.load.chan i).mode = clampMode s.params.modeFallback (s.cfg.read (50 + i.val)) := by
  rw [State.load_chan]
  exact congrArg (clampMode s.params.modeFallback) (readParam_eq s.cfg .mode i .day)

/-- Settles O21. -/
theorem modeByteIsClampedAtLoad : Obligations.ModeByteIsClampedAtLoad := by
  refine ⟨fun s i b hb => ⟨s.load, rfl, ?_⟩, rfl⟩
  rw [State.load_mode, ← hb]
  refine ⟨?_, ?_, ?_, ?_, ?_, ?_, clampMode_fallback s.params.modeFallback⟩
  all_goals
    intro hcode
    rw [hcode]
    rfl

/-! ## The response -/

/-- A supervisory pass gives events at most (R192). -/
theorem State.supervise_response (raw : Half) (s : State) :
    (s.supervise raw).out.response = s.out.response := by
  rcases State.supervise_cases raw s with ⟨-, h⟩ | ⟨-, h⟩
  · rw [h, State.enterFault_out]
    split <;> rfl
  · rw [h, State.exitFault_out]
    split <;> rfl

/-- A command other than CFGRD, CFGADR and STATRD keeps the response (R101). -/
theorem outputAfter_response_eq_or (j : Instr) (s : State) :
    (outputAfter j s).response = s.out.response ∨
      (∃ off, j = .cfgrd off) ∨ (∃ k c p, j = .cfgadr k c p) ∨ ∃ sel, j = .statrd sel := by
  cases j with
  | cfgrd off => exact .inr (.inl ⟨off, rfl⟩)
  | cfgadr k c p => exact .inr (.inr (.inl ⟨k, c, p, rfl⟩))
  | statrd sel => exact .inr (.inr (.inr ⟨sel, rfl⟩))
  | supv raw => exact .inl (State.supervise_response raw s)
  | dnin lvl =>
    left
    simp only [outputAfter]
    split <;> rfl
  | _ => exact .inl rfl

/-- Settles O56. -/
theorem responsesOnlyFromReads : Obligations.ResponsesOnlyFromReads := by
  refine ⟨fun j s t h hne => ?_, fun s => ⟨fun _ => ⟨_, _, rfl, rfl⟩, fun _ _ _ => ⟨_, _, rfl, rfl⟩,
    fun _ => ⟨_, _, rfl, rfl⟩⟩⟩
  obtain ⟨-, -, -, hout, -, -⟩ := exec_next h
  rw [hout] at hne
  exact (outputAfter_response_eq_or j s).resolve_left hne

end Machine
end Sys2Proof

/-! PROOFS of the statements about completion and about the address decoder outside its domain. -/

namespace Sys2Proof.Machine

/-! ## Completion -/

/-- The meaning of every command answers a next state, and none a fault or a refusal (R271). -/
theorem exec_completes (i : Instr) (s : State) : ∃ t, exec i s = .next t := by
  cases i with
  | _ => exact ⟨_, rfl⟩

/-- With a word waiting the step completes as its command does; without one it idles (entry 2). -/
theorem step_completes (s : State) : ∃ t, step s = .next t := by
  cases hport : s.port with
  | nil => exact ⟨s.idle, step_nil hport⟩
  | cons w rest =>
    rw [step_cons hport]
    exact exec_completes (decodeWord w) (s.accept rest)

/-- Settles O8. -/
theorem everyCommandCompletes : Obligations.EveryCommandCompletes :=
  ⟨exec_completes, step_completes, fun ⟨fault⟩ => nomatch fault⟩

/-! ## The address decoder, for every 4-bit channel number -/

/-- The last group and the largest channel number bound what the formula gives (R122). -/
theorem cfgAddr_le (k : ParamKind) (c : BitVec 4) (p : Phase) : (cfgAddr k c p).toNat ≤ 65 := by
  have hg := groupIndex_le k p
  have hc := c.isLt
  rw [cfgAddr_toNat]
  omega

/-- Settles O15: the formula of R120 holds for every channel number, so also for 10 and up (entry 7). -/
theorem cfgadrOutsideDomainUsesFormula : Obligations.CfgadrOutsideDomainUsesFormula := by
  intro k c p s _
  refine ⟨zext32 (cfgAddr k c p), rfl, ?_⟩
  rw [zext32_toNat]
  exact ⟨cfgAddr_toNat k c p, cfgAddr_le k c p⟩

end Sys2Proof.Machine

/-! PROOFS of the statements about the channel engine and the alarm timer. First TICK and runs of TICKs, then
one tick of a channel in DELAY and in TRANSIT, then how many ticks a segment lasts, then the end of a chain. -/

namespace Sys2Proof.Machine

/-! ## The step rate -/

theorem dutyDistance_eq_absDiff (a b : Byte) : dutyDistance a b = absDiff b a := by
  unfold dutyDistance absDiff
  omega

theorem dutyDistance_le (a b : Byte) : dutyDistance a b ≤ 255 :=
  dutyDistance_eq_absDiff a b ▸ absDiff_le b a

theorem dutyDistance_eq_zero {a b : Byte} : dutyDistance a b = 0 ↔ a = b := by
  rw [← BitVec.toNat_inj]
  unfold dutyDistance
  omega

/-- The slowest rate is 255 seconds over the smallest span of 4 (R130). -/
theorem deriveMsPerStep_le (secTrans dc0 dc1 : Byte) : (deriveMsPerStep secTrans dc0 dc1).toNat ≤ 63750 := by
  have hsec := secTrans.isLt
  have hquot : secTrans.toNat * 1000 / max (absDiff dc1 dc0) 4 ≤ secTrans.toNat * 1000 / 4 :=
    Nat.div_le_div_left (Nat.le_max_right _ _) (by decide)
  rw [deriveMsPerStep_toNat]
  omega

/-- Settles O23. -/
theorem stepRateIsClampedQuotient : Obligations.StepRateIsClampedQuotient := by
  intro secTrans dc0 dc1
  refine ⟨?_, deriveMsPerStep_pos secTrans dc0 dc1, deriveMsPerStep_le secTrans dc0 dc1⟩
  rw [dutyDistance_eq_absDiff, deriveMsPerStep_toNat]

/-! ## TICK -/

theorem State.tickAll_chan_running {s : State} (h : s.frozen = false) (i : ChanIdx) :
    s.tickAll.chan i = (s.chan i).tick := by
  simp [h]

theorem State.frozen_eq_false {s : State}
    (h : s.params.freezeOnPowerFault = false ∨ s.g.alarmActive = false) : s.frozen = false :=
  Bool.and_eq_false_iff.mpr h

/-- In a running engine a TICK leaves what the channel's own tick gives. -/
theorem tickGives_of_tick {s : State} {i : ChanIdx} {d : Channel} (h : s.frozen = false)
    (hd : (s.chan i).tick = d) : TickGives s i d :=
  ⟨s.tickAll, rfl, (State.tickAll_chan_running h i).trans hd⟩

/-- The row of TICK (R92). -/
theorem rowDecodes_tick : RowDecodes 0xF0000000 0x10000000 (fun _ => .tick) := by
  intro w h
  have hop : opField w = 0x1 := opField_of_mask h
  rw [decodeWord, hop]
  rfl

/-- Settles O24. -/
theorem tickAdvancesLanesAndAlarmTimer : Obligations.TickAdvancesLanesAndAlarmTimer := by
  refine ⟨rowDecodes_tick, fun s => ⟨s.tickAll, rfl, ?_, s.g.tickAlarm_toNat, fun hfreeze hactive => ?_,
    fun h => State.tickAll_chan_running (State.frozen_eq_false h)⟩⟩
  · have hg : s.g.tickAlarm = { s.g with alarmCnt := s.g.tickAlarm.alarmCnt } := by
      rw [Globals.tickAlarm_eq]
    exact congrArg (fun g => { s with ch := s.tickAll.ch, g := g }) hg
  · have hfrozen : s.frozen = true := by simp [State.frozen, hfreeze, hactive]
    exact ch_ext_of_chan fun i => by rw [State.tickAll_chan, if_pos hfrozen]

/-- A STEADY channel is the same after a TICK, frozen or not (R135). -/
theorem State.tickAll_chan_steady {s : State} {i : ChanIdx} (h : (s.chan i).state = .steady) :
    s.tickAll.chan i = s.chan i := by
  rw [State.tickAll_chan, Channel.tick_steady h, ite_self]

theorem Globals.tickAlarm_idle {g : Globals} (h : g.alarmCnt = 0) : g.tickAlarm = g := by
  simp [Globals.tickAlarm, h]

/-- Settles O25. -/
theorem tickLeavesSteadyChannelsAlone : Obligations.TickLeavesSteadyChannelsAlone := by
  refine ⟨fun s i h => ⟨s.tickAll, rfl, State.tickAll_chan_steady h⟩, fun s hsteady hidle => ?_⟩
  have hsame : s.tickAll = s := State.ext_of_chan (fun i => State.tickAll_chan_steady (hsteady i))
    (Globals.tickAlarm_idle hidle) rfl rfl rfl rfl
  exact congrArg Host.Outcome.next hsame

/-- Settles O31: a lane reads its own record and the frozen flag only. -/
theorem tickLanesAreIndependent : Obligations.TickLanesAreIndependent := by
  intro s s' i hchan hfreeze hactive
  have hfrozen : s.frozen = s'.frozen := by simp only [State.frozen, hfreeze, hactive]
  exact ⟨s.tickAll, s'.tickAll, rfl, rfl, by rw [State.tickAll_chan, State.tickAll_chan, hchan, hfrozen]⟩

/-! ## Runs of TICKs -/

theorem tickRun_eq_iterate (k : Nat) (s : State) : tickRun k s = .next (State.tickAll^[k] s) := by
  induction k generalizing s with
  | zero => rfl
  | succ k ih => rw [tickRun_succ, ih, Function.iterate_succ_apply]

/-- A run of a running engine is, lane by lane, a run of the channel's own tick. -/
theorem State.iterate_tickAll_chan {s : State} (h : s.frozen = false) (i : ChanIdx) (k : Nat) :
    (State.tickAll^[k] s).chan i = Channel.tick^[k] (s.chan i) := by
  induction k generalizing s with
  | zero => rfl
  | succ k ih =>
    rw [Function.iterate_succ_apply, ih (s.tickAll_frozen.trans h), State.tickAll_chan_running h,
      Function.iterate_succ_apply]

theorem State.iterate_tickAll_params (s : State) (k : Nat) : (State.tickAll^[k] s).params = s.params := by
  induction k generalizing s with
  | zero => rfl
  | succ k ih => rw [Function.iterate_succ_apply, ih, State.tickAll_params]

theorem State.iterate_tickAll_alarmCnt (s : State) (k : Nat) :
    (State.tickAll^[k] s).g.alarmCnt.toNat = s.g.alarmCnt.toNat - k := by
  induction k generalizing s with
  | zero => rfl
  | succ k ih =>
    rw [Function.iterate_succ_apply, ih, State.tickAll_g, Globals.tickAlarm_toNat]
    omega

/-- A function that lowers a count by one while it keeps `P`, and from a count of 1 answers `d`, keeps `P` for
as long as the count says and then answers `d`. -/
theorem iterate_of_countdown {α : Type} {f : α → α} {P : α → Prop} {left : α → Nat} {d : α}
    (hstep : ∀ c, P c → 1 < left c → P (f c) ∧ left (f c) + 1 = left c)
    (hlast : ∀ c, P c → left c = 1 → f c = d) {c : α} (hc : P c) (hpos : 0 < left c) :
    (∀ k < left c, P (f^[k] c)) ∧ f^[left c] c = d := by
  obtain ⟨n, hn⟩ := Nat.exists_eq_add_of_lt hpos
  rw [Nat.zero_add] at hn
  induction n generalizing c with
  | zero =>
    rw [hn]
    exact ⟨fun k hk => Nat.lt_one_iff.mp hk ▸ hc, hlast c hc hn⟩
  | succ n ih =>
    obtain ⟨hnext, hleft⟩ := hstep c hc (by omega)
    have hleft' : left (f c) = n + 1 := by omega
    obtain ⟨hkeep, hend⟩ := ih hnext (by omega) hleft'
    rw [hleft'] at hkeep hend
    rw [hn]
    refine ⟨fun k hk => ?_, hend⟩
    cases k with
    | zero => exact hc
    | succ k => exact hkeep k (by omega)

/-! ## The alarm timer -/

/-- A fault that finds the timer idle loads it with its period (R192, R197). -/
theorem State.supervise_loads_timer {s : State} {raw : Half} (hidle : s.g.alarmCnt = 0)
    (hfault : faultSample s.params raw) : (s.supervise raw).g.alarmCnt = s.params.alarmPeriodMs := by
  rw [State.supervise_g, (Globals.faulty_sensed s.g s.params raw).mpr hfault]
  exact if_pos ⟨rfl, hidle⟩

theorem State.supervise_params (raw : Half) (s : State) : (s.supervise raw).params = s.params := by
  rcases State.supervise_cases raw s with ⟨-, h⟩ | ⟨-, h⟩ <;> simp [h]

/-- Settles O42: the timer counts down from its period, and the buzzer is on while it is above the period less
the on-time (R200). -/
theorem alarmSoundsForItsOnTime : Obligations.AlarmSoundsForItsOnTime := by
  rintro s raw ⟨-, hon, hperiod⟩ hidle hfault
  refine ⟨s.supervise raw, rfl, fun k => ⟨_, tickRun_eq_iterate k _, ?_⟩⟩
  have hcnt := State.iterate_tickAll_alarmCnt (s.supervise raw) k
  rw [State.supervise_loads_timer hidle hfault] at hcnt
  rw [State.buzzer, State.iterate_tickAll_params, State.supervise_params, hcnt, decide_eq_true_iff,
    ← BitVec.toNat_inj, hcnt]
  refine ⟨by omega, ?_⟩
  show _ - k = 0 ↔ _
  omega

/-! ## One tick of a channel in DELAY (R134) -/

/-- The record with which a delay hands over to the ramp. -/
def Channel.rampStart (c : Channel) : Channel := { c with state := .transit, msCount := 0, secCount := 0 }

theorem Channel.countMs_count {c : Channel} (h : c.msCount.toNat + 1 < 1000) :
    c.countMs = { c with msCount := c.msCount + 1 } := by
  rcases c.countMs_cases with ⟨hfull, -⟩ | ⟨-, hcount⟩
  · bv_omega
  · exact hcount

theorem Channel.countMs_second {c : Channel} (h : c.msCount.toNat + 1 = 1000) :
    c.countMs = { c with msCount := 0, secCount := c.secCount + 1 } := by
  rcases c.countMs_cases with ⟨-, hsecond⟩ | ⟨hnot, -⟩
  · exact hsecond
  · bv_omega

theorem Channel.delayTick_leaves {c : Channel} (h : c.countMs.secCount = c.secDelay c.phase) :
    c.delayTick = c.rampStart := by
  rw [Channel.delayTick, if_pos h]
  rcases c.countMs_cases with ⟨-, hc⟩ | ⟨-, hc⟩ <;> rw [hc] <;> rfl

theorem Channel.delayTick_waits {c : Channel} (h : c.countMs.secCount ≠ c.secDelay c.phase) :
    c.delayTick = c.countMs :=
  if_neg h

/-- A legal delay is either running short of its seconds, or it is 0 seconds and at its start. -/
theorem Channel.delay_cases {c : Channel} (hok : c.ok) (hs : c.state = .delay) :
    c.msCount.toNat < 1000 ∧ (c.secCount.toNat < (c.secDelay c.phase).toNat ∨
      c.secDelay c.phase = 0 ∧ c.secCount = 0 ∧ c.msCount = 0) := by
  obtain ⟨-, -, ⟨-, hdelay, -⟩, -⟩ := c.ok_iff.mp hok
  exact hdelay hs

section
variable {c : Channel} (hs : c.state = .delay)
include hs

theorem Channel.tick_delay_count (hms : c.msCount.toNat + 1 < 1000)
    (hne : c.secCount ≠ c.secDelay c.phase) : c.tick = { c with msCount := c.msCount + 1 } := by
  have hcount := Channel.countMs_count hms
  rw [Channel.tick_delay hs, Channel.delayTick_waits (by rwa [hcount]), hcount]

/-- A delay of 0 seconds is over on its first tick. -/
theorem Channel.tick_delay_zero (hms : c.msCount.toNat + 1 < 1000)
    (heq : c.secCount = c.secDelay c.phase) : c.tick = c.rampStart := by
  rw [Channel.tick_delay hs, Channel.delayTick_leaves (by rwa [Channel.countMs_count hms])]

/-- The end of a second that is not the last one. -/
theorem Channel.tick_delay_second (hlt : c.secCount.toNat < (c.secDelay c.phase).toNat)
    (hms : c.msCount.toNat + 1 = 1000) (hne : c.secCount.toNat + 1 ≠ (c.secDelay c.phase).toNat) :
    c.tick = { c with msCount := 0, secCount := c.secCount + 1 } := by
  have hcount := Channel.countMs_second hms
  have hnext : c.secCount + 1 ≠ c.secDelay c.phase := by bv_omega
  rw [Channel.tick_delay hs, Channel.delayTick_waits (by rwa [hcount]), hcount]

/-- The end of the last second. -/
theorem Channel.tick_delay_last (hms : c.msCount.toNat + 1 = 1000)
    (heq : c.secCount.toNat + 1 = (c.secDelay c.phase).toNat) : c.tick = c.rampStart := by
  have hnext : c.secCount + 1 = c.secDelay c.phase := by bv_omega
  rw [Channel.tick_delay hs, Channel.delayTick_leaves (by rwa [Channel.countMs_second hms])]

end

/-- Settles O26, clause by clause. -/
theorem delayTickCountsThenLeaves : Obligations.DelayTickCountsThenLeaves := by
  intro s i hrun hok hs
  obtain ⟨-, hsec⟩ := Channel.delay_cases hok hs
  refine ⟨fun hms hne => tickGives_of_tick hrun (Channel.tick_delay_count hs hms hne),
    fun hms heq => tickGives_of_tick hrun (Channel.tick_delay_zero hs hms heq), fun hms hne => ?_,
    fun hms heq => tickGives_of_tick hrun (Channel.tick_delay_last hs hms heq)⟩
  have hlt : (s.chan i).secCount.toNat < ((s.chan i).secDelay (s.chan i).phase).toNat := by
    refine hsec.resolve_right fun ⟨_, _, hzero⟩ => ?_
    rw [hzero] at hms
    exact absurd hms (by decide)
  exact tickGives_of_tick hrun (Channel.tick_delay_second hs hlt hms hne)

/-! ## The end of a segment (R137, R140) -/

/-- The chain table is the chain's length and repetition, row by row. -/
theorem segmentAfter_eq {m : Mode} {t : Phase} {k : Bool} (h : k.toNat < chainLen m t) :
    segmentAfter m t k =
      if k.toNat + 1 < chainLen m t then some (t.other, true)
      else if chainRepeats m t then some (t, false) else none := by
  revert h
  cases m <;> cases t <;> cases k <;> decide

/-- The end of a segment at its target follows the chain table. -/
theorem Channel.segmentDone_eq_afterSegment {c : Channel} (h : c.chainOk) (hcur : c.dcCur = c.target) :
    c.segmentDone = c.afterSegment := by
  obtain ⟨-, hpos⟩ := h
  rw [Channel.segmentDone, Channel.afterSegment, segmentAfter_eq hpos, ← hcur]
  split
  · rfl
  · split <;> rfl

/-- The record after a segment does not depend on how far its ramp had come. -/
theorem Channel.afterSegment_ramp (c : Channel) : c.ramp.afterSegment = c.afterSegment := by
  rcases c.ramp_cases with ⟨-, h⟩ | ⟨-, -, h⟩ | ⟨-, -, h⟩ <;> rw [h] <;> rfl

theorem Channel.afterSegment_rampStart (c : Channel) : c.rampStart.afterSegment = c.afterSegment := rfl

theorem Channel.afterSegment_dcCur (c : Channel) : c.afterSegment.dcCur = c.target := by
  unfold Channel.afterSegment
  split <;> rfl

theorem Channel.afterSegment_state_ne (c : Channel) : c.afterSegment.state ≠ .transit := by
  unfold Channel.afterSegment
  split <;> exact ChState.noConfusion

/-! ## One tick of a channel in TRANSIT (R133, R136) -/

theorem Channel.tick_transit_arrived {c : Channel} (hok : c.ok) (hs : c.state = .transit)
    (h : c.ramp.dcCur = c.target) : c.tick = c.afterSegment := by
  obtain ⟨hchain, -⟩ := c.ok_iff.mp hok
  obtain ⟨-, -, -, -, -, -, -, htarget⟩ := c.ramp_frame
  rw [Channel.tick_transit hs, Channel.transitTick, if_pos h,
    Channel.segmentDone_eq_afterSegment (Channel.ramp_chainOk hchain) (h.trans htarget.symm),
    Channel.afterSegment_ramp]

theorem Channel.tick_transit_short {c : Channel} (hs : c.state = .transit) (h : c.ramp.dcCur ≠ c.target) :
    c.tick = c.ramp :=
  (Channel.tick_transit hs).trans (if_neg h)

/-- The end of a segment leaves the duty cycle where the ramp put it. -/
theorem Channel.tick_transit_dcCur {c : Channel} (hs : c.state = .transit) : c.tick.dcCur = c.ramp.dcCur := by
  obtain ⟨-, -, -, hdone⟩ := c.ramp.segmentDone_frame
  rw [Channel.tick_transit hs, Channel.transitTick]
  split
  · exact hdone
  · rfl

/-- The millisecond count of a legal ramp is below the step rate, which is never 0. -/
theorem Channel.transit_msCount_lt {c : Channel} (hok : c.ok) (hs : c.state = .transit) :
    c.msCount.toNat < c.msPerStep.toNat := by
  obtain ⟨-, -, ⟨-, -, htransit⟩, -⟩ := c.ok_iff.mp hok
  exact (htransit hs).1

theorem stepToward_arrives {v t : Byte} (h : v.toNat ≤ t.toNat + 1) (h' : t.toNat ≤ v.toNat + 1) :
    stepToward v t = t := by
  apply BitVec.eq_of_toNat_eq
  rw [stepToward_toNat]
  split_ifs <;> omega

theorem stepToward_up {v t : Byte} (h : v.toNat < t.toNat) : stepToward v t = v + 1 := if_pos h

theorem stepToward_down {v t : Byte} (h : t.toNat < v.toNat) : stepToward v t = v - 1 := by
  rw [stepToward, if_neg (by omega), if_pos h]

/-- A step that starts off the target takes one unit off the distance. -/
theorem dutyDistance_stepToward {v t : Byte} (h : v ≠ t) :
    dutyDistance (stepToward v t) t + 1 = dutyDistance v t := by
  rw [ne_eq, ← BitVec.toNat_inj] at h
  unfold dutyDistance
  rw [stepToward_toNat]
  split_ifs <;> omega

theorem Channel.ramp_step {c : Channel} (hne : c.secTrans ≠ 0)
    (hms : c.msCount.toNat + 1 = c.msPerStep.toNat) :
    c.ramp = { c with msCount := 0, dcCur := stepToward c.dcCur c.target } := by
  have hfull : c.msCount + 1 = c.msPerStep := by bv_omega
  rw [Channel.ramp, if_neg hne, if_pos hfull]

/-- A full count further from the target steps and counts anew. -/
theorem Channel.tick_transit_step {c : Channel} (hs : c.state = .transit) (hne : c.secTrans ≠ 0)
    (hms : c.msCount.toNat + 1 = c.msPerStep.toNat) (hstep : stepToward c.dcCur c.target ≠ c.target) :
    c.tick = { c with msCount := 0, dcCur := stepToward c.dcCur c.target } := by
  have hramp := Channel.ramp_step hne hms
  rw [Channel.tick_transit_short hs (by rwa [hramp]), hramp]

section
variable {c : Channel} (hok : c.ok) (hs : c.state = .transit)
include hs hok

theorem Channel.ramp_count (hne : c.secTrans ≠ 0) (hms : c.msCount.toNat + 1 ≠ c.msPerStep.toNat) :
    c.ramp = { c with msCount := c.msCount + 1 } := by
  have hlt := Channel.transit_msCount_lt hok hs
  have hnot : c.msCount + 1 ≠ c.msPerStep := by bv_omega
  rw [Channel.ramp, if_neg hne, if_neg hnot]

/-- Without a transition time the first tick arrives (R136). -/
theorem Channel.tick_transit_jump (h : c.secTrans = 0) : c.tick = c.afterSegment :=
  Channel.tick_transit_arrived hok hs (by rw [Channel.ramp, if_pos h])

theorem Channel.tick_transit_atTarget (h : c.dcCur = c.target) : c.tick = c.afterSegment := by
  refine Channel.tick_transit_arrived hok hs ?_
  have hstep : stepToward c.target c.target = c.target := stepToward_arrives (by omega) (by omega)
  rcases c.ramp_cases with ⟨-, hr⟩ | ⟨-, -, hr⟩ | ⟨-, -, hr⟩ <;> rw [hr] <;> simp [h, hstep]

theorem Channel.tick_transit_count (hne : c.secTrans ≠ 0) (hcur : c.dcCur ≠ c.target)
    (hms : c.msCount.toNat + 1 ≠ c.msPerStep.toNat) : c.tick = { c with msCount := c.msCount + 1 } := by
  have hramp := Channel.ramp_count hok hs hne hms
  rw [Channel.tick_transit_short hs (by rwa [hramp]), hramp]

/-- A full count one unit from the target arrives. -/
theorem Channel.tick_transit_lastStep (hne : c.secTrans ≠ 0)
    (hms : c.msCount.toNat + 1 = c.msPerStep.toNat) (hstep : stepToward c.dcCur c.target = c.target) :
    c.tick = c.afterSegment :=
  Channel.tick_transit_arrived hok hs (by rwa [Channel.ramp_step hne hms])

end

/-- Settles O27, clause by clause. -/
theorem transitTickRampsAndEndsSegment : Obligations.TransitTickRampsAndEndsSegment := by
  rintro s i _ rfl hrun hok hs
  refine ⟨fun h => tickGives_of_tick hrun (Channel.tick_transit_jump hok hs h),
    fun _ h => tickGives_of_tick hrun (Channel.tick_transit_atTarget hok hs h),
    fun hne hcur hms => tickGives_of_tick hrun (Channel.tick_transit_count hok hs hne hcur hms),
    fun hne hms h => tickGives_of_tick hrun (Channel.tick_transit_lastStep hok hs hne hms ?_),
    fun hne hms h => tickGives_of_tick hrun ?_, fun hne hms h => tickGives_of_tick hrun ?_⟩
  · exact stepToward_arrives (by omega) (by omega)
  · have hup := stepToward_up (Nat.lt_of_succ_lt h)
    rw [Channel.tick_transit_step hs hne hms (by bv_omega), hup]
  · have hdown := stepToward_down (Nat.lt_of_succ_lt h)
    rw [Channel.tick_transit_step hs hne hms (by bv_omega), hdown]

/-! ## How long a segment lasts (R147) -/

/-- The ticks that a channel in DELAY still waits, the one that leaves included. -/
def Channel.delayLeft (c : Channel) : Nat :=
  max 1 (1000 * (c.secDelay c.phase).toNat) - (1000 * c.secCount.toNat + c.msCount.toNat)

/-- A legal channel in DELAY whose ramp starts from the record `d`. -/
def Channel.WaitsFor (c d : Channel) : Prop := c.ok ∧ c.state = .delay ∧ c.rampStart = d

/-- The ticks that a channel in TRANSIT still takes, the one that ends the segment included. -/
def Channel.rampLeft (c : Channel) : Nat :=
  if c.secTrans = 0 then 1
  else max 1 (dutyDistance c.dcCur c.target * c.msPerStep.toNat - c.msCount.toNat)

/-- A legal channel in TRANSIT whose segment ends in the record `d`. -/
def Channel.RampsTo (c d : Channel) : Prop := c.ok ∧ c.state = .transit ∧ c.afterSegment = d

theorem Channel.delayLeft_pos {c : Channel} (hok : c.ok) (hs : c.state = .delay) : 0 < c.delayLeft := by
  obtain ⟨hms, hsec | ⟨hzero, hsec, hms'⟩⟩ := Channel.delay_cases hok hs
  · unfold Channel.delayLeft
    omega
  · simp [Channel.delayLeft, hzero, hsec, hms']

theorem Channel.rampLeft_pos (c : Channel) : 0 < c.rampLeft := by
  unfold Channel.rampLeft
  split <;> omega

/-- At its start a delay waits as long as R147 says. -/
theorem Channel.delayLeft_start {c : Channel} (hms : c.msCount = 0) (hsec : c.secCount = 0) :
    c.delayLeft = max 1 (1000 * (c.secDelay c.phase).toNat) := by
  simp [Channel.delayLeft, hms, hsec]

/-- At its start a ramp takes as long as R147 says. -/
theorem Channel.rampLeft_rampStart (c : Channel) :
    c.rampStart.rampLeft =
      if c.secTrans = 0 then 1 else max 1 (dutyDistance c.dcCur c.target * c.msPerStep.toNat) := rfl

/-- A delay of at least a second, which is short of its seconds. -/
theorem Channel.secCount_lt_of_delayLeft {c : Channel} (hok : c.ok) (hs : c.state = .delay)
    (hleft : 1 < c.delayLeft) : c.secCount.toNat < (c.secDelay c.phase).toNat := by
  obtain ⟨-, hsec⟩ := Channel.delay_cases hok hs
  refine hsec.resolve_right fun ⟨hzero, _, _⟩ => ?_
  simp only [Channel.delayLeft, hzero] at hleft
  change 1 < max 1 (1000 * 0) - _ at hleft
  omega

/-- A tick before the last one of a delay counts. -/
theorem Channel.WaitsFor.tick {c d : Channel} (h : c.WaitsFor d) (hleft : 1 < c.delayLeft) :
    c.tick.WaitsFor d ∧ c.tick.delayLeft + 1 = c.delayLeft := by
  obtain ⟨hok, hs, hd⟩ := h
  obtain ⟨hms, -⟩ := Channel.delay_cases hok hs
  have hlt := Channel.secCount_lt_of_delayLeft hok hs hleft
  have hok' := Channel.tick_ok hok
  by_cases hfull : c.msCount.toNat + 1 = 1000
  · have hmore : c.secCount.toNat + 1 ≠ (c.secDelay c.phase).toNat := by
      unfold Channel.delayLeft at hleft
      omega
    rw [Channel.tick_delay_second hs hlt hfull hmore] at hok' ⊢
    refine ⟨⟨hok', hs, hd⟩, ?_⟩
    have hsec : (c.secCount + 1).toNat = c.secCount.toNat + 1 := by bv_omega
    show max 1 (1000 * (c.secDelay c.phase).toNat) - (1000 * (c.secCount + 1).toNat + 0) + 1 = _
    unfold Channel.delayLeft
    omega
  · have hne : c.secCount ≠ c.secDelay c.phase := by bv_omega
    rw [Channel.tick_delay_count hs (by omega) hne] at hok' ⊢
    refine ⟨⟨hok', hs, hd⟩, ?_⟩
    have hcount : (c.msCount + 1).toNat = c.msCount.toNat + 1 := by bv_omega
    show max 1 (1000 * (c.secDelay c.phase).toNat) - (1000 * c.secCount.toNat + (c.msCount + 1).toNat) + 1 = _
    unfold Channel.delayLeft
    omega

/-- The last tick of a delay starts the ramp. -/
theorem Channel.WaitsFor.tick_last {c d : Channel} (h : c.WaitsFor d) (hleft : c.delayLeft = 1) :
    c.tick = d := by
  obtain ⟨hok, hs, hd⟩ := h
  obtain ⟨hms, hlt | ⟨hzero, hsec, hms'⟩⟩ := Channel.delay_cases hok hs
  · unfold Channel.delayLeft at hleft
    exact (Channel.tick_delay_last hs (by omega) (by omega)).trans hd
  · exact (Channel.tick_delay_zero hs (hms' ▸ by decide) (hsec.trans hzero.symm)).trans hd

/-- A tick before the last one of a ramp counts, or takes a step that does not arrive. -/
theorem Channel.RampsTo.tick {c d : Channel} (h : c.RampsTo d) (hleft : 1 < c.rampLeft) :
    c.tick.RampsTo d ∧ c.tick.rampLeft + 1 = c.rampLeft := by
  obtain ⟨hok, hs, hd⟩ := h
  have hlt := Channel.transit_msCount_lt hok hs
  have hok' := Channel.tick_ok hok
  have hne : c.secTrans ≠ 0 := fun h0 => by simp [Channel.rampLeft, h0] at hleft
  have hleft' : c.rampLeft = max 1 (dutyDistance c.dcCur c.target * c.msPerStep.toNat - c.msCount.toNat) :=
    if_neg hne
  have hcur : c.dcCur ≠ c.target := fun h0 => by
    rw [hleft', dutyDistance_eq_zero.mpr h0] at hleft
    omega
  by_cases hfull : c.msCount.toNat + 1 = c.msPerStep.toNat
  · have hdist := dutyDistance_stepToward hcur
    have hspan : dutyDistance c.dcCur c.target * c.msPerStep.toNat =
        dutyDistance (stepToward c.dcCur c.target) c.target * c.msPerStep.toNat + c.msPerStep.toNat := by
      rw [← hdist, Nat.succ_mul]
    have hstep : stepToward c.dcCur c.target ≠ c.target := fun h0 => by
      rw [dutyDistance_eq_zero.mpr h0] at hspan
      omega
    rw [Channel.tick_transit_step hs hne hfull hstep] at hok' ⊢
    refine ⟨⟨hok', hs, hd⟩, ?_⟩
    have hnext : ({ c with msCount := 0, dcCur := stepToward c.dcCur c.target } : Channel).rampLeft =
      max 1 (dutyDistance (stepToward c.dcCur c.target) c.target * c.msPerStep.toNat) := if_neg hne
    omega
  · have hcount : (c.msCount + 1).toNat = c.msCount.toNat + 1 := by bv_omega
    rw [Channel.tick_transit_count hok hs hne hcur hfull] at hok' ⊢
    refine ⟨⟨hok', hs, hd⟩, ?_⟩
    have hnext : ({ c with msCount := c.msCount + 1 } : Channel).rampLeft =
      max 1 (dutyDistance c.dcCur c.target * c.msPerStep.toNat - (c.msCount + 1).toNat) := if_neg hne
    omega

/-- The last tick of a ramp ends the segment: there is no transition time, or the channel is at its target, or
one unit short of it with a full count. -/
theorem Channel.RampsTo.tick_last {c d : Channel} (h : c.RampsTo d) (hleft : c.rampLeft = 1) :
    c.tick = d := by
  obtain ⟨hok, hs, rfl⟩ := h
  have hlt := Channel.transit_msCount_lt hok hs
  by_cases hne : c.secTrans = 0
  · exact Channel.tick_transit_jump hok hs hne
  by_cases hcur : c.dcCur = c.target
  · exact Channel.tick_transit_atTarget hok hs hcur
  have hdist := dutyDistance_stepToward hcur
  rw [Channel.rampLeft, if_neg hne, ← hdist, Nat.succ_mul] at hleft
  have hspan : dutyDistance (stepToward c.dcCur c.target) c.target * c.msPerStep.toNat = 0 := by omega
  have harrives : dutyDistance (stepToward c.dcCur c.target) c.target = 0 :=
    (Nat.mul_eq_zero.mp hspan).resolve_right (by omega)
  exact Channel.tick_transit_lastStep hok hs hne (by omega) (dutyDistance_eq_zero.mp harrives)

/-- A delay lasts the ticks it has left and then starts the ramp. -/
theorem Channel.delay_run {c : Channel} (hok : c.ok) (hs : c.state = .delay) :
    (∀ k < c.delayLeft, (Channel.tick^[k] c).WaitsFor c.rampStart) ∧
      Channel.tick^[c.delayLeft] c = c.rampStart :=
  iterate_of_countdown (P := (·.WaitsFor c.rampStart)) (fun _ => Channel.WaitsFor.tick)
    (fun _ => Channel.WaitsFor.tick_last) ⟨hok, hs, rfl⟩ (Channel.delayLeft_pos hok hs)

/-- A ramp lasts the ticks it has left and then ends the segment. -/
theorem Channel.ramp_run {c : Channel} (hok : c.ok) (hs : c.state = .transit) :
    (∀ k < c.rampLeft, (Channel.tick^[k] c).RampsTo c.afterSegment) ∧
      Channel.tick^[c.rampLeft] c = c.afterSegment :=
  iterate_of_countdown (P := (·.RampsTo c.afterSegment)) (fun _ => Channel.RampsTo.tick)
    (fun _ => Channel.RampsTo.tick_last) ⟨hok, hs, rfl⟩ c.rampLeft_pos

/-- The record that starts a ramp is legal, because the step rate is never 0. -/
theorem Channel.rampStart_ok {c : Channel} (h : c.ok) : c.rampStart.ok := by
  obtain ⟨hchain, hrate, -, hover⟩ := c.ok_iff.mp h
  exact (Channel.ok_iff _).mpr ⟨hchain, hrate, Channel.countersOk_rampStart hrate rfl rfl rfl, hover⟩

/-- Settles O28: the countdown of the delay, then that of the ramp. -/
theorem segmentLastsItsDelayAndRamp : Obligations.SegmentLastsItsDelayAndRamp := by
  rintro s i _ rfl hrun hok hs hms hsec _ _ rfl rfl
  rw [← Channel.delayLeft_start hms hsec, ← Channel.rampLeft_rampStart]
  obtain ⟨hwaits, hopen⟩ := Channel.delay_run hok hs
  obtain ⟨hramps, hend⟩ := Channel.ramp_run (Channel.rampStart_ok hok) rfl
  rw [Channel.afterSegment_rampStart] at hend
  have hlater (j : Nat) : (State.tickAll^[(s.chan i).delayLeft + j] s).chan i =
      Channel.tick^[j] (s.chan i).rampStart := by
    rw [State.iterate_tickAll_chan hrun, Nat.add_comm, Function.iterate_add_apply, hopen]
  refine ⟨fun k hk => ⟨_, tickRun_eq_iterate k s, ?_⟩, fun k hk hk' => ⟨_, tickRun_eq_iterate k s, ?_⟩,
    _, tickRun_eq_iterate _ s, (hlater _).trans hend⟩
  · obtain ⟨-, hdelay, -⟩ := hwaits k hk
    rw [State.iterate_tickAll_chan hrun, hdelay]
  · obtain ⟨j, rfl⟩ := Nat.exists_eq_add_of_le hk
    obtain ⟨-, htransit, -⟩ := hramps j (by omega)
    rw [hlater, htransit]

/-! ## The ramp does not overshoot (R148) -/

/-- What a TICK makes of the duty cycle of a channel in TRANSIT: nothing, also when the engine is frozen, or
the target at once, or one step. -/
theorem State.tickAll_dcCur_cases {s : State} {i : ChanIdx} (hs : (s.chan i).state = .transit) :
    (s.tickAll.chan i).dcCur = (s.chan i).dcCur ∨
    ((s.chan i).secTrans = 0 ∧ (s.tickAll.chan i).dcCur = (s.chan i).target) ∨
    ((s.chan i).secTrans ≠ 0 ∧
      (s.tickAll.chan i).dcCur = stepToward (s.chan i).dcCur (s.chan i).target) := by
  rw [State.tickAll_chan]
  split
  · exact .inl rfl
  · rw [Channel.tick_transit_dcCur hs]
    rcases (s.chan i).ramp_cases with ⟨h0, hr⟩ | ⟨hne, -, hr⟩ | ⟨-, -, hr⟩ <;> rw [hr]
    · exact .inr (.inl ⟨h0, rfl⟩)
    · exact .inr (.inr ⟨hne, rfl⟩)
    · exact .inl rfl

/-- No ramp has more left than all 255 units at its rate. -/
theorem Channel.rampLeft_le (c : Channel) : c.rampLeft ≤ max 1 (255 * c.msPerStep.toNat) := by
  have hspan := Nat.mul_le_mul_right c.msPerStep.toNat (dutyDistance_le c.dcCur c.target)
  unfold Channel.rampLeft
  split <;> omega

/-- Settles O29: case by case for the one tick, and by the countdown of the ramp for the run. -/
theorem transitConvergesWithoutOvershoot : Obligations.TransitConvergesWithoutOvershoot := by
  rintro s i _ rfl hok hs
  refine ⟨⟨s.tickAll, rfl, ?_⟩, fun hrun => ?_⟩
  · unfold dutyDistance
    rcases State.tickAll_dcCur_cases hs with h | ⟨h0, h⟩ | ⟨hne, h⟩ <;> rw [h]
    · exact ⟨le_rfl, by omega, by omega, by omega, fun _ => .inl rfl⟩
    · exact ⟨by omega, by omega, by omega, fun hne => absurd h0 hne, fun _ => .inr rfl⟩
    · rw [stepToward_toNat]
      refine ⟨?_, ?_, ?_, fun _ => ?_, fun h0 => absurd h0 hne⟩ <;> split_ifs <;> omega
  · obtain ⟨-, hrate, -⟩ := (Channel.ok_iff _).mp hok
    have hbound := (s.chan i).rampLeft_le
    have hslowest : (s.chan i).msPerStep.toNat ≤ 63750 := hrate ▸ deriveMsPerStep_le _ _ _
    obtain ⟨-, hend⟩ := Channel.ramp_run hok hs
    rw [← State.iterate_tickAll_chan hrun] at hend
    refine ⟨(s.chan i).rampLeft, _, hbound, by omega, tickRun_eq_iterate _ s, ?_⟩
    rw [hend]
    exact ⟨Channel.afterSegment_state_ne _, Channel.afterSegment_dcCur _⟩

/-! ## The end of a chain (R150) -/

/-- A tick of a ramp stays in TRANSIT or ends the segment. -/
theorem Channel.tick_transit_cases {c : Channel} (hok : c.ok) (hs : c.state = .transit) :
    c.tick.state = .transit ∨ c.tick = c.afterSegment := by
  by_cases h : c.ramp.dcCur = c.target
  · exact .inr (Channel.tick_transit_arrived hok hs h)
  · obtain ⟨-, -, -, -, -, hstate, -⟩ := c.ramp_frame
    exact .inl (by rw [Channel.tick_transit_short hs h, hstate, hs])

/-- Where the chain table names no next segment, the channel rests (R140). -/
theorem Channel.afterSegment_none {c : Channel} (h : segmentAfter c.mode c.trig c.seqPos = none) :
    c.afterSegment = { c with dcCur := c.target, msCount := 0, secCount := 0, state := .steady } := by
  rw [Channel.afterSegment, h]

/-- The cycling channels are those of the repeating chains that are not at rest (R140). -/
theorem Channel.cycling_iff (c : Channel) :
    c.cycling ↔ chainRepeats c.mode c.trig = true ∧ c.state ≠ .steady := by
  refine and_congr_left fun _ => ?_
  cases c.mode <;> cases c.trig <;> decide

/-- A repeating chain never rests at the end of a segment. -/
theorem Channel.segmentDone_state_of_repeats {c : Channel} (h : chainRepeats c.mode c.trig = true) :
    c.segmentDone.state ≠ .steady := by
  rcases c.segmentDone_cases with ⟨-, -, hd⟩ | ⟨-, -, hd⟩ | ⟨-, hstops, -⟩
  · simp [hd]
  · simp [hd]
  · exact absurd (h.symm.trans hstops) (by decide)

theorem Channel.delayTick_state_ne {c : Channel} (hs : c.state = .delay) : c.delayTick.state ≠ .steady := by
  by_cases h : c.countMs.secCount = c.secDelay c.phase
  · simp [Channel.delayTick_leaves h, Channel.rampStart]
  · rw [Channel.delayTick_waits h]
    rcases c.countMs_cases with ⟨-, hc⟩ | ⟨-, hc⟩ <;> simp [hc, hs]

theorem Channel.transitTick_state_of_repeats {c : Channel} (hs : c.state = .transit)
    (h : chainRepeats c.mode c.trig = true) : c.transitTick.state ≠ .steady := by
  obtain ⟨hcfg, -, htrig, -, -, hstate, -⟩ := c.ramp_frame
  simp only [Channel.config, Prod.mk.injEq] at hcfg
  obtain ⟨-, -, -, -, -, hmode, -⟩ := hcfg
  unfold Channel.transitTick
  split
  · exact Channel.segmentDone_state_of_repeats (by rwa [hmode, htrig])
  · simp [hstate, hs]

/-- A tick keeps a channel in its cycle. -/
theorem Channel.tick_cycling {c : Channel} (h : c.cycling) : c.tick.cycling := by
  rw [Channel.cycling_iff] at h ⊢
  obtain ⟨hrep, hne⟩ := h
  obtain ⟨hcfg, -, htrig⟩ := c.tick_frame
  simp only [Channel.config, Prod.mk.injEq] at hcfg
  obtain ⟨-, -, -, -, -, hmode, -⟩ := hcfg
  refine ⟨by rwa [hmode, htrig], ?_⟩
  cases hs : c.state with
  | steady => exact absurd hs hne
  | transit =>
    rw [Channel.tick_transit hs]
    exact Channel.transitTick_state_of_repeats hs hrep
  | delay =>
    rw [Channel.tick_delay hs]
    exact Channel.delayTick_state_ne hs

/-- Only a trigger or a LOAD takes a channel out of its cycle: the other writes of a record keep its mode, its
trigger phase and its state. -/
theorem LaneWrite.keeps_cycling {s : State} {i : ChanIdx} {j : Instr} {c : Channel} (h : LaneWrite s i j c)
    (hc : (s.chan i).cycling) (hnight : ∀ on, j ≠ .eventNightsw on) (hdnin : ∀ lvl, j ≠ .dnin lvl)
    (hload : j ≠ .load) (hsave : j ≠ .savedef) (hreset : j ≠ .reset) : c.cycling := by
  cases h with
  | tick => exact Channel.tick_cycling hc
  | nightsw on => exact absurd rfl (hnight on)
  | dnin lvl => exact absurd rfl (hdnin lvl)
  | load => exact absurd rfl hload
  | savedef => exact absurd rfl hsave
  | reset => exact absurd rfl hreset
  | keep | test | testend | restore => exact hc

/-- Settles O30. -/
theorem chainsEndSteadyOrCycle : Obligations.ChainsEndSteadyOrCycle := by
  refine ⟨fun s t i ht hok hs hlast hne => ?_,
    fun j s t i ht hc => (laneWrite_of_exec ht i).keeps_cycling hc⟩
  injection ht with ht
  subst ht
  rw [State.tickAll_chan] at hne ⊢
  split at hne
  · exact absurd hs hne
  · next hrun =>
    have hend := (Channel.tick_transit_cases hok hs).resolve_left hne
    rw [if_neg hrun, hend, Channel.afterSegment_none hlast]
    exact ⟨rfl, rfl, rfl⟩

end Sys2Proof.Machine

/-! PROOFS of the statements about the channel bank: what CFGRD and CFGWR do at mapped and unmapped offsets, the
record that LOAD builds, and the store that SAVEDEF leaves. -/

namespace Sys2Proof.Machine

/-! ## The rows of the bank commands -/

/-- A row under the mask of the operation field holds exactly the words of one operation code (R92). -/
theorem rowDecodes_of_opField {m : Word} {i : Word → Instr}
    (h : ∀ w, opField w = opField m → decodeWord w = i w) : RowDecodes 0xF0000000 m i :=
  fun w hw => h w (opField_of_mask hw)

theorem rowDecodes_cfgrd : RowDecodes 0xF0000000 0x50000000 (fun w => .cfgrd (w.extractLsb' 16 8)) :=
  rowDecodes_of_opField fun w h => by rw [decodeWord, h]; rfl

theorem rowDecodes_cfgwr :
    RowDecodes 0xF0000000 0x60000000 (fun w => .cfgwr (w.extractLsb' 16 8) (w.extractLsb' 0 8)) :=
  rowDecodes_of_opField fun w h => by rw [decodeWord, h]; rfl

theorem rowDecodes_load : RowDecodes 0xF0000000 0x80000000 (fun _ => .load) :=
  rowDecodes_of_opField fun w h => by rw [decodeWord, h]; rfl

theorem rowDecodes_savedef : RowDecodes 0xF0000000 0x90000000 (fun _ => .savedef) :=
  rowDecodes_of_opField fun w h => by rw [decodeWord, h]; rfl

/-! ## CFGRD and CFGWR -/

theorem readMapped_of_lt {off : Byte} (h : off.toNat < 60) (m : Memory) :
    readMapped m off = m.read off.toNat :=
  if_pos h

theorem readMapped_of_ge {off : Byte} (h : 60 ≤ off.toNat) (m : Memory) : readMapped m off = 0 :=
  if_neg (Nat.not_lt.mpr h)

theorem writeMapped_of_ge {off : Byte} (h : 60 ≤ off.toNat) (m : Memory) (data : Byte) :
    writeMapped m off data = m :=
  if_neg (Nat.not_lt.mpr h)

/-- Settles O16. -/
theorem cfgrdRespondsStoreByte : Obligations.CfgrdRespondsStoreByte := by
  refine ⟨rowDecodes_cfgrd, fun off s =>
    ⟨zext32 (readMapped s.cfg off), rfl, fun hmapped => ?_, fun hunmapped => ?_⟩⟩
  · rw [zext32_toNat, readMapped_of_lt hmapped]
  · rw [readMapped_of_ge hunmapped]
    rfl

/-- Settles O17. -/
theorem cfgwrWritesOneStoreByte : Obligations.CfgwrWritesOneStoreByte := by
  refine ⟨rowDecodes_cfgwr, fun off data s =>
    ⟨s.setCfg (writeMapped s.cfg off data), rfl, rfl, fun hmapped => ?_, fun a hne => ?_, fun hunmapped => ?_⟩⟩
  · rw [State.setCfg_cfg, read_writeMapped, if_pos ⟨hmapped, rfl⟩]
  · rw [State.setCfg_cfg, read_writeMapped, if_neg fun h => hne h.2]
  · rw [writeMapped_of_ge hunmapped]
    rfl

/-! ## LOAD -/

/-- LOAD reads each parameter at the offset R72 gives its group and keeps the test override (R171). -/
theorem loadChannel_eq_fromStore (p : Params) (m : Memory) (t : Phase) (i : ChanIdx) (c : Channel) :
    loadChannel p m t i c = Channel.fromStore p m t i c.testEn c.testVal := by
  simp only [loadChannel, Channel.fromStore, readParam_eq, groupIndex]
  cases t <;> simp

/-- Settles O19. -/
theorem loadRefillsEveryChannel : Obligations.LoadRefillsEveryChannel := by
  refine ⟨rowDecodes_load, fun s => ⟨s.load, rfl, rfl, fun i => ?_⟩⟩
  rw [State.load_chan, loadChannel_eq_fromStore]

/-- A byte that is a mode code comes back as the code of the mode it selects (R104, R173). -/
theorem code_clampMode (fallback : Mode) {b : Byte} (h : b.toNat ≤ 5) :
    (clampMode fallback b).code.setWidth 8 = b := by
  unfold clampMode
  split
  case h_7 =>
    simp only [imp_false] at *
    omega
  all_goals exact (eq_ofNat_of_toNat_eq ‹_›).symm

/-- LOAD keeps every parameter but the mode as the byte it read (R171). -/
theorem loadedByte_loadChannel {k : ParamKind} (h : k ≠ .mode) (params : Params) (m : Memory) (t : Phase)
    (i : ChanIdx) (c : Channel) (p : Phase) :
    (loadChannel params m t i c).loadedByte k p = readParam m k i p := by
  cases k with
  | trans => rfl
  | delay | dc => cases p <;> rfl
  | mode => exact absurd rfl h

/-- CFGRD at the decoder's offset reads the byte that LOAD reads (R74, R176). -/
theorem readMapped_cfgAddr (m : Memory) (k : ParamKind) (i : ChanIdx) (p : Phase) :
    readMapped m (cfgAddr k (chanNumber i) p) = readParam m k i p :=
  readMapped_of_lt (cfgAddr_lt k p (by rw [chanNumber_toNat]; exact i.isLt)) m

/-- Settles O20. -/
theorem loadThenReadRoundTrips : Obligations.LoadThenReadRoundTrips := by
  intro s i k p
  refine ⟨s.load, _, readParam s.cfg k i p, rfl, rfl, rfl, ?_, fun hk => ?_, ?_⟩
  · exact congrArg (some ∘ zext32) (readMapped_cfgAddr s.cfg k i p)
  · rw [State.load_chan, loadedByte_loadChannel hk]
  · rintro rfl hcode
    rw [State.load_chan]
    exact code_clampMode s.params.modeFallback hcode

/-! ## SAVEDEF -/

/-- SAVEDEF's writes stay inside the store (R175). -/
theorem read_saveAllDefaults_of_ge (d : DefaultNv) (m : Memory) {a : Nat} (h : 60 ≤ a) :
    (saveAllDefaults d m).read a = m.read a := by
  unfold saveAllDefaults
  generalize List.finRange 10 = l
  induction l generalizing m with
  | nil => rfl
  | cons i l ih =>
    rw [List.foldl_cons, ih, read_saveChannelDefaults]
    iterate 6 rw [if_neg (by omega)]

/-- LOAD after SAVEDEF's writes reads each group's default, whatever the store held (R175). -/
theorem readParam_saveAllDefaults (d : DefaultNv) (m : Memory) (k : ParamKind) (i : ChanIdx) (p : Phase) :
    readParam (saveAllDefaults d m) k i p = defaultOfGroup d (groupIndex k p) := by
  rw [readParam_eq, read_saveAllDefaults d m _ (groupIndex_le k p)]

/-- What LOAD makes of the defaults of R181. -/
theorem loadChannel_saveAllDefaults (p : Params) (m : Memory) (t : Phase) (i : ChanIdx) (c : Channel) :
    loadChannel p (saveAllDefaults Config.defaultNv m) t i c =
      { dc0 := 0, dc1 := 255, dcCur := if t = .night then 255 else 0, state := .steady, phase := t
        secTrans := 5, secDelay0 := 0, secDelay1 := 0, mode := .dayNight, msPerStep := 19, msCount := 0
        secCount := 0, trig := t, seqPos := false, testEn := c.testEn, testVal := c.testVal } := by
  simp only [loadChannel, readParam_saveAllDefaults]
  cases t <;> rfl

/-- Settles O22, group by group for the store and record by record for the channels. -/
theorem savedefWritesDefaultsAndLoads : Obligations.SavedefWritesDefaultsAndLoads := by
  refine ⟨rowDecodes_savedef, fun s => ⟨s.saveDefaults, rfl, rfl, fun a ha => ?_, fun i => ?_, fun hd i => ?_⟩⟩
  · rw [State.saveDefaults_cfg, read_saveAllDefaults_of_ge _ _ ha]
  · rw [State.saveDefaults_chan, State.saveDefaults_cfg, loadChannel_eq_fromStore]
    have hgroup (gi : Nat) (hg : gi ≤ 5) := read_saveAllDefaults s.params.defaultNv s.cfg gi hg i
    refine ⟨?_, hgroup 1 (by decide), hgroup 2 (by decide), hgroup 3 (by decide), hgroup 4 (by decide),
      hgroup 5 (by decide), rfl⟩
    simpa [defaultOfGroup] using hgroup 0 (by decide)
  · rw [State.saveDefaults_chan, show s.params.defaultNv = Config.defaultNv from hd,
      loadChannel_saveAllDefaults]
    exact ⟨rfl, rfl, rfl, fun hday => by simp [hday], fun hnight => by simp [hnight]⟩

end Sys2Proof.Machine

/-! PROOFS of the statements about the power supervisor and the output multiplexer. First the multiplexer level
by level, then what a supervisory pass and a shutdown pair do to what it reads. -/

namespace Sys2Proof.Machine

/-! ## The output multiplexer (R199) -/

theorem State.duty_of_fault {s : State} (hfault : s.g.alarmActive = true) (i : ChanIdx) : s.duty i = 0 :=
  if_pos hfault

/-- A shutdown forces the output whatever the fault register holds: both forced values are 0 (R10). -/
theorem State.duty_of_shutdown {s : State} (hshut : s.g.shutdown = true) (i : ChanIdx) : s.duty i = 0 := by
  rw [State.duty, if_pos hshut]
  exact ite_self _

/-- With no fault and no shutdown the channel record alone gives the output. -/
theorem State.duty_of_no_force {s : State} (hfault : s.g.alarmActive = false) (hshut : s.g.shutdown = false)
    (i : ChanIdx) : s.duty i = if (s.chan i).testEn then (s.chan i).testVal else (s.chan i).dcCur := by
  simp [State.duty, hfault, hshut]

/-- The multiplexer reads the fault and shutdown registers and its own channel record only. -/
theorem State.duty_congr {s t : State} {i : ChanIdx} (hfault : t.g.alarmActive = s.g.alarmActive)
    (hshut : t.g.shutdown = s.g.shutdown) (hchan : t.chan i = s.chan i) : t.duty i = s.duty i := by
  rw [State.duty, hfault, hshut, hchan, ← State.duty]

/-- Settles O43, level by level. -/
theorem outputPriority : Obligations.OutputPriority := by
  refine fun s i => ⟨fun hfault => State.duty_of_fault hfault i, fun _ hshut => State.duty_of_shutdown hshut i,
    fun hfault hshut htest => ?_, fun hfault hshut htest => ?_⟩
  · rw [State.duty_of_no_force hfault hshut, if_pos htest]
  · rw [State.duty_of_no_force hfault hshut, htest]
    rfl

/-! ## One supervisory pass -/

theorem rowDecodes_supv : RowDecodes 0xF0000000 0x40000000 (fun w => .supv (w.extractLsb' 0 16)) :=
  rowDecodes_of_opField fun w h => by rw [decodeWord, h]; rfl

@[simp] theorem State.supervise_chan (raw : Half) (s : State) (i : ChanIdx) :
    (s.supervise raw).chan i = s.chan i := by
  obtain ⟨hchan, -⟩ := exec_next (j := .supv raw) (s := s) rfl
  exact hchan i

/-- A supervisory pass writes the global registers and the output only. -/
theorem State.supervise_frame (raw : Half) (s : State) :
    s.supervise raw = { s with g := (s.supervise raw).g, out := (s.supervise raw).out } := by
  obtain ⟨hchan, -, hcfg, -, hparams, hport⟩ := exec_next (j := .supv raw) (s := s) rfl
  exact State.ext_of_chan hchan rfl hcfg hparams rfl hport

/-- The sensed registers see a fault by the two comparisons of R193 and R194. -/
theorem Globals.faulty_sensed_eq (g : Globals) (p : Params) (raw : Half) :
    (g.sensed p raw).faulty =
      (decide (p.overampMa.toNat < (sample p raw).toNat) || decide (raw.toNat < p.uvRaw.toNat)) := rfl

/-- A supervisory pass emits on an edge of the fault register only (R192, R196). -/
theorem State.supervise_out (raw : Half) (s : State) :
    (s.supervise raw).out = { s.out with events := s.out.events ++
      (if (s.g.sensed s.params raw).faulty = true ∧ s.g.alarmActive = false then [⟨.alarm, true⟩]
       else if (s.g.sensed s.params raw).faulty = false ∧ s.g.alarmActive = true then [⟨.alarm, false⟩]
       else []) } := by
  have hfaulty := Globals.faulty_sensed s.g s.params raw
  have hactive : (s.g.sensed s.params raw).alarmActive = s.g.alarmActive := rfl
  rcases State.supervise_cases raw s with ⟨hf, h⟩ | ⟨hf, h⟩
  · rw [h, State.enterFault_out, hfaulty.mpr hf, State.setG_g, hactive]
    cases s.g.alarmActive <;> simp
  · rw [h, State.exitFault_out, Bool.eq_false_iff.mpr (mt hfaulty.mp hf), State.setG_g, hactive]
    cases s.g.alarmActive <;> simp

/-- Settles O40: the estimate and the fault of the statement are the sample's number and the sensed fault. -/
theorem supervisoryPassSetsFaultState : Obligations.SupervisoryPassSetsFaultState := by
  refine ⟨rowDecodes_supv, fun raw s mA fault hmA hfault => ?_⟩
  obtain rfl : mA = (sample s.params raw).toNat := hmA.trans (sample_toNat s.params raw).symm
  obtain rfl : fault = (s.g.sensed s.params raw).faulty := hfault.trans (Globals.faulty_sensed_eq ..).symm
  have hg := State.supervise_g raw s
  refine ⟨s.supervise raw, rfl, State.supervise_frame raw s, ?_, ?_, State.supervise_out raw s⟩
  · rw [hg, BitVec.ofNat_toNat, BitVec.setWidth_eq]
    rfl
  · rw [hg]
    rfl

/-! ## Fault and recovery (R202) -/

/-- A supervisory pass leaves the fault override active exactly after a fault sample (R192). -/
theorem State.supervise_alarmActive (raw : Half) (s : State) :
    (s.supervise raw).g.alarmActive = true ↔ faultSample s.params raw := by
  rw [State.supervise_g]
  exact Globals.faulty_sensed s.g s.params raw

@[simp] theorem State.supervise_shutdown (raw : Half) (s : State) :
    (s.supervise raw).g.shutdown = s.g.shutdown := by
  rw [State.supervise_g]
  rfl

/-- Settles O41: the fault override only masks the outputs, and the registers they are read from survive it. -/
theorem faultBlacksOutThenRestoresExactly : Obligations.FaultBlacksOutThenRestoresExactly := by
  intro s raw raw' hidle hfault hclear
  refine ⟨s.supervise raw, (s.supervise raw).supervise raw', rfl, rfl, fun i => ⟨?_, ?_⟩, fun i => ?_⟩
  · exact State.duty_of_fault ((State.supervise_alarmActive raw s).mpr hfault) i
  · exact State.supervise_chan raw s i
  · have hclear' : ¬ faultSample (s.supervise raw).params raw' := by rwa [State.supervise_params]
    have hended : ((s.supervise raw).supervise raw').g.alarmActive = false :=
      Bool.eq_false_iff.mpr (mt (State.supervise_alarmActive raw' _).mp hclear')
    exact State.duty_congr (hended.trans hidle.symm) (by simp) (by simp)

/-! ## A shutdown pair (R226) -/

theorem State.shutdownPair_g (s : State) :
    ((s.shutdownEv true).shutdownEv false).g = { s.g with shutdown := false } := rfl

theorem State.shutdownPair_chan (s : State) (i : ChanIdx) :
    ((s.shutdownEv true).shutdownEv false).chan i = (s.chan i).restoreTarget := by
  rw [State.shutdownEv_off, State.mapCh_chan, State.setG_chan, State.shutdownEv_on, State.setG_chan]

/-- After the pair the test override still comes before the loaded target (R199). -/
theorem State.shutdownPair_duty {s : State} (hfault : s.g.alarmActive = false) (i : ChanIdx) :
    ((s.shutdownEv true).shutdownEv false).duty i =
      if (s.chan i).testEn then (s.chan i).testVal else (s.chan i).target := by
  rw [State.duty_of_no_force (by rw [s.shutdownPair_g, hfault]) (by rw [s.shutdownPair_g]),
    s.shutdownPair_chan]
  rfl

/-- Settles O38: SHUTDOWN off shows the records again, and writes in them the duty cycle alone. -/
theorem shutdownPairRestoresLoadedTargets : Obligations.ShutdownPairRestoresLoadedTargets := by
  intro s
  refine ⟨s.shutdownEv true, (s.shutdownEv true).shutdownEv false, rfl, rfl,
    fun i => State.duty_of_shutdown rfl i, fun i => ⟨fun hfault htest => ?_, fun hfault htest => ?_,
      fun hfault => ?_, ?_, ?_⟩⟩
  · rw [State.shutdownPair_duty hfault, htest]
    rfl
  · rw [State.shutdownPair_duty hfault, if_pos htest]
  · exact State.duty_of_fault (by rw [s.shutdownPair_g, hfault]) i
  · rw [s.shutdownPair_chan]
    rfl
  · rw [s.shutdownPair_chan]
    rfl

end Sys2Proof.Machine

/-! PROOFS of the statements about the event dispatch. First the rows of the EVENT commands, then the triggers,
the test and shutdown overrides, and the outbound events of every command. -/

namespace Sys2Proof.Machine

/-! ## The rows of the event map (R94, R103) -/

/-- An EVENT word goes through the event-number map. -/
theorem decodeWord_event {w : Word} (h : opField w = 0x2) :
    decodeWord w = decodeEvent (onField w) (enField w) := by
  rw [decodeWord, h]
  rfl

/-- A row under the mask of the operation field and the event number holds the words of one event number. -/
theorem rowDecodes_of_event {m : Word} {i : Bool → Instr} (hop : opField m = 0x2)
    (hrow : ∀ on, decodeEvent on (enField m) = i on) : RowDecodes 0xF000FFFF m (fun w => i (w.getLsbD 16)) := by
  intro w h
  rw [decodeWord_event ((opField_of_eventMask h).trans hop), enField_of_eventMask h]
  exact hrow (onField w)

/-- Settles O12. -/
theorem unknownEventsAreIgnored : Obligations.UnknownEventsAreIgnored := by
  refine ⟨fun w hw hen => ?_, fun _ _ _ => rfl⟩
  have hop : opField w = 0x2 := opField_of_mask hw
  rw [decodeWord_event hop]
  exact decodeEvent_ignored (onField w) hen

/-! ## Triggers and the local input -/

/-- Settles O32: the night switch is a broadcast of its phase, and a broadcast triggers every channel. -/
theorem nightSwitchRestartsEveryChannel : Obligations.NightSwitchRestartsEveryChannel := by
  refine ⟨rowDecodes_of_event rfl fun _ => rfl, fun on s => ?_⟩
  rw [← Phase.ofBool_eq on]
  exact ⟨s.broadcast (Phase.ofBool on), rfl, rfl, State.broadcast_chan (Phase.ofBool on) s⟩

theorem rowDecodes_dnin :
    RowDecodes 0xF0000000 0x30000000 (fun w => .dnin (if w.getLsbD 0 then .night else .day)) :=
  rowDecodes_of_opField fun w h => by
    rw [decodeWord, h, ← Phase.ofBool_eq]
    rfl

/-- Settles O33: a change of level is recorded, broadcast and echoed. -/
theorem localInputActsOnChange : Obligations.LocalInputActsOnChange := by
  refine ⟨rowDecodes_dnin, fun lvl s => ?_⟩
  rcases State.presentLevel_cases lvl s with ⟨hsame, hnext⟩ | ⟨hchange, hnext⟩
  · exact ⟨fun _ => congrArg Host.Outcome.next hnext, fun hne => absurd hsame hne⟩
  · refine ⟨fun heq => absurd heq hchange,
      fun _ => ⟨_, congrArg Host.Outcome.next hnext, rfl, fun i => ?_⟩⟩
    rw [State.emit_chan, State.broadcast_chan, State.setG_chan]
    rfl

/-! ## Test and shutdown -/

/-- The test event of a channel forces that channel (R224). -/
theorem exec_testCommand (n : ChanIdx) (on : Bool) (s : State) :
    exec (testCommand n on) s = .next (s.testCh n on) := by
  fin_cases n <;> rfl

/-- The ten test events, each with its channel (R103, R224). -/
theorem testCommand_table (on : Bool) :
    (List.finRange 10).map (fun n => (testCommand n on, n)) =
      [(.eventTest1 on, 0), (.eventTest2 on, 1), (.eventTest3 on, 2), (.eventTest4 on, 3), (.eventTest5 on, 4),
        (.eventTest6 on, 5), (.eventTest7 on, 6), (.eventTest8 on, 7), (.eventTest9 on, 8),
        (.eventTest10 on, 9)] := rfl

/-- Settles O35: each event of the table is its channel's test command, which writes that record alone. -/
theorem testEventsForceOneChannel : Obligations.TestEventsForceOneChannel := by
  iterate 10 refine ⟨rowDecodes_of_event rfl fun _ => rfl, ?_⟩
  intro on s i n hmem
  rw [← testCommand_table on, List.mem_map] at hmem
  obtain ⟨k, -, hk⟩ := hmem
  obtain ⟨rfl, rfl⟩ := Prod.mk.inj hk
  refine ⟨s.testCh k on, exec_testCommand k on s, rfl, ?_, fun j hj => ?_⟩
  · rw [State.testCh_chan, if_pos rfl]
    rfl
  · rw [State.testCh_chan, if_neg hj]

/-- Settles O36. -/
theorem testEndReleasesEveryChannel : Obligations.TestEndReleasesEveryChannel :=
  ⟨rowDecodes_of_event rfl fun _ => rfl, fun _ s => ⟨s.testEnd, rfl, rfl, State.testEnd_chan s⟩⟩

/-- Settles O37: "off" restores the target of every record, whatever `g.shutdown` was. -/
theorem shutdownForcesAndRestores : Obligations.ShutdownForcesAndRestores := by
  refine ⟨rowDecodes_of_event rfl fun _ => rfl, fun s => ⟨rfl, s.shutdownEv false, rfl, rfl, fun i => ?_⟩⟩
  rw [State.shutdownEv_off, State.mapCh_chan, State.setG_chan]
  rfl

/-! ## Outbound events (R229, R230) -/

theorem rowDecodes_emittest : RowDecodes 0xF0000000 0xA0000000 (fun w => .emittest (w.getLsbD 0)) :=
  rowDecodes_of_opField fun w h => by rw [decodeWord, h]; rfl

/-- Settles O39. -/
theorem emittestEmitsTestMessage : Obligations.EmittestEmitsTestMessage :=
  ⟨rowDecodes_emittest, fun _ _ => rfl⟩

/-- R230's table: the events a command adds, from the registers before it (`g`) and after it (`g'`). -/
def eventsEmitted (j : Instr) (g g' : Globals) : List OutEvent :=
  match j with
  | .reset => [⟨.power, true⟩]
  | .supv _ => if g'.alarmActive = g.alarmActive then [] else [⟨.alarm, g'.alarmActive⟩]
  | .dnin lvl => if lvl = g.dnInput then [] else [⟨.night, decide (lvl = .night)⟩]
  | .emittest lvl => [⟨.test, lvl⟩]
  | _ => []

/-- A supervisory pass emits the new value of the fault register when it changed (R192, R196). -/
theorem State.supervise_events (raw : Half) (s : State) :
    (s.supervise raw).out.events = s.out.events ++ eventsEmitted (.supv raw) s.g (s.supervise raw).g := by
  rw [State.supervise_out, State.supervise_g]
  cases hfault : (s.g.sensed s.params raw).faulty <;> cases hactive : s.g.alarmActive <;>
    simp [eventsEmitted, hactive]

/-- Every command adds the events of its row of the table, and no other. -/
theorem exec_events {j : Instr} {s t : State} (h : exec j s = .next t) :
    t.out.events = s.out.events ++ eventsEmitted j s.g t.g := by
  obtain ⟨-, hg, -, hout, -, -⟩ := exec_next h
  rw [hg, hout]
  cases j with
  | supv raw => exact State.supervise_events raw s
  | dnin lvl =>
    by_cases hsame : lvl = s.g.dnInput
    · simp [outputAfter, eventsEmitted, hsame]
    · simp [outputAfter, eventsEmitted, hsame]
  | reset | emittest lvl => rfl
  | _ => exact (List.append_nil _).symm

/-- No row of the table holds (POWER, off). -/
theorem powerOff_not_mem_eventsEmitted (j : Instr) (g g' : Globals) :
    ⟨.power, false⟩ ∉ eventsEmitted j g g' := by
  cases j with
  | supv raw => by_cases h : g'.alarmActive = g.alarmActive <;> simp [eventsEmitted, h]
  | dnin lvl => by_cases h : lvl = g.dnInput <;> simp [eventsEmitted, h]
  | _ => simp [eventsEmitted]

/-- Settles O55: `eventsEmitted` is the table of the statement. -/
theorem eventsEmittedExactlyAsListed : Obligations.EventsEmittedExactlyAsListed := by
  refine ⟨fun _ _ => ⟨rfl, rfl, rfl, rfl⟩, fun j s t h => ?_⟩
  have hevents := exec_events h
  refine ⟨hevents, fun hmem => ?_⟩
  rw [hevents, List.mem_append] at hmem
  exact hmem.resolve_right (powerOff_not_mem_eventsEmitted j s.g t.g)

end Sys2Proof.Machine

/-! PROOFS of the statements about the system commands: the operations without an effect, and RESET. -/

namespace Sys2Proof.Machine

/-! ## The rows of the commands without an operand (R93) -/

/-- Format N names no bit but the operation's, so every word of the row decodes as the row's own word does. -/
theorem rowDecodes_of_formatN {m : Word} (hnamed : namedBits (opField m) = 0xF0000000)
    (hm : m &&& 0xF0000000 = m) : RowDecodes 0xF0000000 m (fun _ => decodeWord m) := by
  intro w hw
  have hop : opField w = opField m := opField_of_mask hw
  refine decodeWord_eq_of_namedBits hop ?_
  rw [hop, hnamed, hw, hm]

/-! ## NOP and the reserved operations (R250, R251) -/

/-- Settles O11. -/
theorem noOperationCommandsChangeNothing : Obligations.NoOperationCommandsChangeNothing :=
  ⟨rowDecodes_of_formatN rfl rfl, rowDecodes_of_formatN rfl rfl, rowDecodes_of_formatN rfl rfl,
    rowDecodes_of_formatN rfl rfl, fun _ => ⟨rfl, rfl, rfl, rfl⟩⟩

/-! ## RESET (R252) -/

/-- RESET fills a record from the store for DAY; the test override, the one thing that LOAD keeps, has been
released before. -/
theorem State.resetAll_chan_eq_fromStore (s : State) (i : ChanIdx) :
    s.resetAll.chan i = Channel.fromStore s.params s.cfg .day i false 0 := by
  rw [State.resetAll_chan, loadChannel_eq_fromStore]
  rfl

/-- Settles O47, with `State.resetAll` as the state that RESET answers. -/
theorem resetRestoresEveryRegister : Obligations.ResetRestoresEveryRegister :=
  ⟨rowDecodes_of_formatN rfl rfl, fun s => ⟨s.resetAll, rfl, rfl, s.resetAll_chan_eq_fromStore⟩⟩

end Sys2Proof.Machine

/-! PROOFS of the statements about the state after RESET and about the bounds of the counters. -/

namespace Sys2Proof.Machine

/-! ## The records and the outputs after RESET (R291, R292) -/

/-- RESET leaves every channel at rest on its day target (R292). -/
theorem State.resetAll_holdsDayTarget (s : State) (i : ChanIdx) :
    (s.resetAll.chan i).state = .steady ∧ (s.resetAll.chan i).dcCur = (s.resetAll.chan i).dc .day := by
  rw [State.resetAll_chan]
  exact ⟨rfl, rfl⟩

/-- RESET releases every test override (R291). -/
theorem State.resetAll_testEn (s : State) (i : ChanIdx) : (s.resetAll.chan i).testEn = false := by
  rw [State.resetAll_chan]
  rfl

/-- The loaded day target is the channel's byte of the store's fourth group (R72). -/
theorem State.resetAll_dcCur (s : State) (i : ChanIdx) :
    (s.resetAll.chan i).dcCur = s.cfg.read (30 + i.val) := by
  rw [State.resetAll_chan_eq_fromStore]
  rfl

/-- With every override released the multiplexer shows the engine (R199). -/
theorem State.resetAll_duty (s : State) (i : ChanIdx) : s.resetAll.duty i = (s.resetAll.chan i).dcCur := by
  rw [State.duty_of_no_force rfl rfl, s.resetAll_testEn i]
  rfl

/-- Settles O49. -/
theorem outputsAfterReset : Obligations.OutputsAfterReset := by
  intro s
  refine ⟨s.resetAll, rfl, State.buzzer_of_idle rfl, rfl, rfl, fun i => ?_⟩
  obtain ⟨-, htarget⟩ := s.resetAll_holdsDayTarget i
  have hduty := s.resetAll_duty i
  exact ⟨s.resetAll_testEn i, hduty, hduty.trans htarget, hduty.trans (s.resetAll_dcCur i)⟩

/-! ## The first local level after RESET (R228, R292) -/

/-- A level that the local input already has is no change (R228). -/
theorem State.presentLevel_same {lvl : Phase} {s : State} (h : lvl = s.g.dnInput) : s.presentLevel lvl = s :=
  if_pos h

/-- A new level starts a chain in every channel (R228). -/
theorem State.presentLevel_change_chan {lvl : Phase} {s : State} (h : lvl ≠ s.g.dnInput) (i : ChanIdx) :
    (s.presentLevel lvl).chan i = (s.chan i).trigger lvl := by
  rcases State.presentLevel_cases lvl s with ⟨hsame, -⟩ | ⟨-, hnext⟩
  · exact absurd hsame h
  · rw [hnext, State.emit_chan, State.broadcast_chan, State.setG_chan]

/-- Settles O34: RESET records DAY as the local level, so DAY is no change and NIGHT is one. -/
theorem firstLevelAfterReset : Obligations.FirstLevelAfterReset := by
  intro s
  have hday : Phase.day = s.resetAll.g.dnInput := rfl
  have hnight : Phase.night ≠ s.resetAll.g.dnInput := Phase.noConfusion
  refine ⟨s.resetAll, s.resetAll.presentLevel .night, rfl, rfl, rfl, s.resetAll_holdsDayTarget,
    congrArg Host.Outcome.next (State.presentLevel_same hday), rfl, fun i => ?_⟩
  rw [State.presentLevel_change_chan hnight]
  exact ⟨rfl, rfl, rfl⟩

/-! ## The bounds of the counters (R307) -/

/-- DELAY counts milliseconds up to a second and TRANSIT up to the step rate (R133, R134). -/
theorem Channel.msCount_le {c : Channel} (h : c.countersOk) :
    c.msCount.toNat ≤ max 1000 c.msPerStep.toNat := by
  obtain ⟨hsteady, hdelay, htransit⟩ := h
  cases hs : c.state with
  | steady =>
    obtain ⟨hms, -⟩ := hsteady hs
    exact hms ▸ Nat.zero_le _
  | transit =>
    obtain ⟨hms, -⟩ := htransit hs
    exact le_max_of_le_right hms.le
  | delay =>
    obtain ⟨hms, -⟩ := hdelay hs
    exact le_max_of_le_left hms.le

/-- Only DELAY counts seconds, and it ends at the delay of its phase (R134). -/
theorem Channel.secCount_le {c : Channel} (h : c.countersOk) :
    c.secCount.toNat ≤ (c.secDelay c.phase).toNat := by
  obtain ⟨hsteady, hdelay, htransit⟩ := h
  cases hs : c.state with
  | steady =>
    obtain ⟨-, hsec, -⟩ := hsteady hs
    exact hsec ▸ Nat.zero_le _
  | transit =>
    obtain ⟨-, hsec⟩ := htransit hs
    exact hsec ▸ Nat.zero_le _
  | delay =>
    obtain ⟨-, hbelow | ⟨-, hsec, -⟩⟩ := hdelay hs
    · exact hbelow.le
    · exact hsec ▸ Nat.zero_le _

/-- Settles O59: the step rate is the derived one, which bounds the millisecond counter of a ramp. -/
theorem noCounterWrapsInLegalStates : Obligations.NoCounterWrapsInLegalStates := by
  rintro s ⟨-, -, ⟨-, -, halarm⟩, hchan⟩
  refine ⟨fun i => ?_, halarm, Nat.le_of_lt_succ s.params.alarmPeriodMs.isLt⟩
  obtain ⟨hok, -⟩ := hchan i
  obtain ⟨-, hrate, hcounters, -⟩ := (Channel.ok_iff _).mp hok
  have hslowest : (s.chan i).msPerStep.toNat ≤ 63750 := hrate ▸ deriveMsPerStep_le _ _ _
  exact ⟨Channel.msCount_le hcounters, max_le (by decide) hslowest, Channel.secCount_le hcounters,
    Nat.le_of_lt_succ (BitVec.isLt _)⟩

end Sys2Proof.Machine
